-- ==== Sys2Proof/Word.lean ====
section
/-! DEFINITION. The value types of the block: all values are unsigned (R10), and bit 0 is the least significant bit. -/

namespace Sys2Proof

/-- A host register or a command word (R8: 32 bits, word access only). -/
abbrev Word := BitVec 32

/-- A 16-bit count, period, delay or data word (R7, R8). -/
abbrev Half := BitVec 16

/-- A byte on the wire or in TXBUF and RXBUF. -/
abbrev Byte := BitVec 8

/-- A 7-bit slave address (R7, R81). -/
abbrev Addr := BitVec 7

/-- An opaque pin identifier (R8: 16 bits). -/
abbrev PinId := BitVec 16

end Sys2Proof
end

