-- ==== Sys2Proof/Syntax.lean ====
section
/-! DEFINITION. The nine commands of the opcode table (R14, R84), one constructor a row. The operands have exactly the
widths of format C's fields (R81). -/

namespace Sys2Proof

inductive Instr where
  /-- CONFIGURE, `create` of the source (R143). -/
  | configure
  /-- INIT (R145). -/
  | init
  /-- RELEASE (R147). -/
  | release
  /-- WRITE addr, n: n bytes of TXBUF to the slave (R150). -/
  | write (addr : Addr) (n : Half)
  /-- READ addr, n: n bytes from the slave into RXBUF (R153). -/
  | read (addr : Addr) (n : Half)
  /-- CRC8 n: the CRC-8 of n bytes of TXBUF (R172). -/
  | crc8 (n : Half)
  /-- ENCODE n: a command and n arguments into TXBUF (R175). -/
  | encode (n : Half)
  /-- DECODE n: n checked words out of RXBUF (R178). -/
  | decode (n : Half)
  /-- DCR addr, n: delayed command read of n words (R182). -/
  | dcr (addr : Addr) (n : Half)
  deriving DecidableEq, Repr

end Sys2Proof
end

