-- ==== Sys2Proof/WellFormed.lean ====
section
/-! DEFINITION. The operand checks: an assembler refuses `a` > 0x7F and `n` > 0xFFFF (R88). The operands of an Instr have
the fields' widths by their types, so every Instr passes; a raw operand of the host's assembly text need not. -/

namespace Sys2Proof

/-- A raw address fits the 7-bit field ADDR. -/
def fitsAddr (a : Nat) : Bool := decide (a ≤ 0x7F)

/-- A raw count fits the 16-bit field N. -/
def fitsCount (n : Nat) : Bool := decide (n ≤ 0xFFFF)

/-- A raw bit range of a 32-bit host variable (R88, `t[hi:lo]`). -/
def fitsRange (hi lo : Nat) : Bool := decide (lo ≤ hi) && decide (hi ≤ 31)

/-- A raw value fits the 32 bits of a host access. -/
def fitsWord (v : Nat) : Bool := decide (v < 2 ^ 32)

/-- Every operand of a command fits its field. -/
def Instr.wellFormed : Instr → Bool
  | .configure => true
  | .init => true
  | .release => true
  | .write a n => fitsAddr a.toNat && fitsCount n.toNat
  | .read a n => fitsAddr a.toNat && fitsCount n.toNat
  | .crc8 n => fitsCount n.toNat
  | .encode n => fitsCount n.toNat
  | .decode n => fitsCount n.toNat
  | .dcr a n => fitsAddr a.toNat && fitsCount n.toNat

end Sys2Proof
end

