-- ==== Sys2Proof/Decode.lean ====
section
/-! DEFINITION. Format C (R80 to R85): the decoder, total on every 32-bit word, and the encoder. -/

namespace Sys2Proof

/-- Why a word is no command (R85). All four end the same way, COMMAND_ERROR. -/
inductive Reject where
  /-- OPC 0x00, or 0x0A to 0xFF. -/
  | reservedOpcode
  /-- RSV = 1. -/
  | reservedBit
  /-- a nonzero ADDR where the opcode has none. -/
  | addrNotZero
  /-- a nonzero N where the opcode has none. -/
  | countNotZero
  deriving DecidableEq, Repr

/-- OPC, bits [7:0] (R81). -/
def opcOf (w : Word) : Byte := w.extractLsb' 0 8

/-- ADDR, bits [14:8] (R81). -/
def addrOf (w : Word) : Addr := w.extractLsb' 8 7

/-- RSV, bit [15] (R81). -/
def rsvOf (w : Word) : Bool := w.getLsbD 15

/-- N, bits [31:16] (R81). -/
def countOf (w : Word) : Half := w.extractLsb' 16 16

/-- A word matches a row of R84: `(w & mask) == match`. -/
def matchesRow (w mask pattern : Word) : Bool := w &&& mask == pattern

/-- The name of the reason a word that matches no row is rejected (R85). -/
def rejectReason (w : Word) : Reject :=
  if opcOf w = 0 || decide (0x0A ≤ (opcOf w).toNat) then .reservedOpcode
  else if rsvOf w then .reservedBit
  else if addrOf w ≠ 0 then .addrNotZero
  else .countNotZero

/-- The opcode map of R84, row by row. -/
def decode (w : Word) : Except Reject Instr :=
  if matchesRow w 0xFFFFFFFF 0x00000001 then .ok .configure
  else if matchesRow w 0xFFFFFFFF 0x00000002 then .ok .init
  else if matchesRow w 0xFFFFFFFF 0x00000003 then .ok .release
  else if matchesRow w 0x000080FF 0x00000004 then .ok (.write (addrOf w) (countOf w))
  else if matchesRow w 0x000080FF 0x00000005 then .ok (.read (addrOf w) (countOf w))
  else if matchesRow w 0x0000FFFF 0x00000006 then .ok (.crc8 (countOf w))
  else if matchesRow w 0x0000FFFF 0x00000007 then .ok (.encode (countOf w))
  else if matchesRow w 0x0000FFFF 0x00000008 then .ok (.decode (countOf w))
  else if matchesRow w 0x000080FF 0x00000009 then .ok (.dcr (addrOf w) (countOf w))
  else .error (rejectReason w)

/-- The decoder as an option. -/
def decode? (w : Word) : Option Instr := (decode w).toOption

/-- The table's numbering is the word's own: a command is one 32-bit word (R80), bit 0 its least significant bit, and
the register interface has no byte order (R62). Bits at and above `nbits` are 0. -/
def decodeTableWord (nbits w : Nat) : Option Instr := decode? (BitVec.ofNat 32 (w % 2 ^ nbits))

/-- The row of an instruction in R84: its mask. -/
def maskOf : Instr → Word
  | .configure => 0xFFFFFFFF
  | .init => 0xFFFFFFFF
  | .release => 0xFFFFFFFF
  | .write _ _ => 0x000080FF
  | .read _ _ => 0x000080FF
  | .crc8 _ => 0x0000FFFF
  | .encode _ => 0x0000FFFF
  | .decode _ => 0x0000FFFF
  | .dcr _ _ => 0x000080FF

/-- The row of an instruction in R84: the value its masked bits have. -/
def matchOf : Instr → Word
  | .configure => 0x00000001
  | .init => 0x00000002
  | .release => 0x00000003
  | .write _ _ => 0x00000004
  | .read _ _ => 0x00000005
  | .crc8 _ => 0x00000006
  | .encode _ => 0x00000007
  | .decode _ => 0x00000008
  | .dcr _ _ => 0x00000009

/-- The word of format C with the given fields: `(n << 16) | (a << 8) | opc` (R81, R88). -/
def formatC (opc : Byte) (a : Addr) (n : Half) : Word :=
  n.setWidth 32 <<< 16 ||| a.setWidth 32 <<< 8 ||| opc.setWidth 32

/-- The command word of an instruction (R88). -/
def encode : Instr → Word
  | .configure => formatC 0x01 0 0
  | .init => formatC 0x02 0 0
  | .release => formatC 0x03 0 0
  | .write a n => formatC 0x04 a n
  | .read a n => formatC 0x05 a n
  | .crc8 n => formatC 0x06 0 n
  | .encode n => formatC 0x07 0 n
  | .decode n => formatC 0x08 0 n
  | .dcr a n => formatC 0x09 a n

end Sys2Proof
end

