-- ==== Sys2Proof/Config.lean ====
section
/-! DEFINITION. What the platform fixes (R9, left OPEN by the spec) and the free values: constants with no body, of
which nothing can be proved. -/

namespace Sys2Proof

/-- The OPEN parameters of R9 that a run needs as data. The State carries one and no step changes it, so a statement
about every state is a statement about every platform (log 2, DESIGN CHOICE). -/
structure Platform where
  /-- BUF_LEN: the capacity of TXBUF and of RXBUF in bytes. -/
  bufLen : Nat
  /-- WBUF_LEN: the capacity of WORDBUF in 16-bit words. -/
  wbufLen : Nat
  /-- What is known of VALID_PIN; an identifier that is not listed has the free value `Config.validPin`. -/
  pins : List (PinId × Bool)
  deriving DecidableEq, Repr

/-- The bounds R9 puts on the capacities. -/
def Platform.wf (p : Platform) : Bool :=
  decide (2 ≤ p.bufLen) && decide (p.bufLen ≤ 65535) && decide (1 ≤ p.wbufLen)

/-- The platform of the spec's test vectors (95_test_vectors.md §0), which State.reset carries (log 2, DESIGN CHOICE). -/
def Platform.testVectors : Platform :=
  { bufLen := 16, wbufLen := 4, pins := [(4, true), (5, true), (98, false), (99, false)] }

/-- VALID_PIN on the identifiers a Platform does not list (R9, U9). -/
opaque Config.validPin : PinId → Bool

/-- The ENV draw for a read of SCL when no scripted draw is left (R26, U8), by the draw's number. -/
opaque Config.sclDraw : Nat → Bool

/-- The ENV draw for a read of SDA when no scripted draw is left (R26, U8), by the draw's number. -/
opaque Config.sdaDraw : Nat → Bool

/-- Whether the host (true) or the sequencer (false) moves next when both can and no scripted turn is left (R72). -/
opaque Config.hostFirst : Nat → Bool

/-- What a host read of RXBUF or WORDBUF gives while BUSY = 1 (R76, U3), by the draw's number. -/
opaque Config.busyRead : Nat → Word

/-- What a host variable holds before the host program assigns it: R88 does not say (log 11). -/
opaque Config.hostVar : Nat → Word

/-- BASE, the system address of the block (R69, S5). No rule reads it. -/
opaque Config.base : Nat

end Sys2Proof
end

