-- ==== Sys2Proof/Machine/Types.lean ====
section
/-! DEFINITION. The names the spec gives: lines and their states, FSM states, error codes, trace actions, buffers, the
lines of the rules' pseudocode (the sequencer position is a list of them) and the host program's statements. -/

namespace Sys2Proof.Machine

/-- The two wires (R12). -/
inductive Line where
  | scl
  | sda
  deriving DecidableEq, Repr

/-- The line-state variables' values (R22 to R24). There is no driven-high state (R25). -/
inductive LineState where
  | neutral
  | released
  | drivenLow
  deriving DecidableEq, Repr

/-- FSM_STATE (R32). -/
inductive FsmState where
  | idle
  | started
  | writingBit
  | ackPhase
  | readingBit
  | acknackPhase
  | stopped
  | delay
  | pinSetup
  deriving DecidableEq, Repr

/-- ERR_CODE (R200); also the error an operation raises (R13). -/
inductive ErrCode where
  | none
  | invalidPin
  | clockTimeout
  | nack
  | checksumMismatch
  | configurationError
  | commandError
  deriving DecidableEq, Repr

/-- ERR_PHASE (R203). -/
inductive Phase where
  | none
  | address
  | data
  | stop
  deriving DecidableEq, Repr

/-- ERR_DIR (R203). -/
inductive Dir where
  | write
  | read
  deriving DecidableEq, Repr

/-- A trace entry (R12): PU, LO, RD, RST, SLP. -/
inductive Action where
  | pu (l : Line)
  | lo (l : Line)
  | rd (l : Line) (level : Bool)
  | rst (l : Line)
  | slp (ms : Nat)
  deriving DecidableEq, Repr

/-- The three buffers (R38). -/
inductive Buf where
  | tx
  | rx
  | wb
  deriving DecidableEq, Repr

/-- Who moves next when both can (R72). -/
inductive Agent where
  | host
  | sequencer
  deriving DecidableEq, Repr

/-- Which `on Err` clause of the rules is in force at the sequencer's position. -/
inductive Handler where
  /-- No pin action that can fail is running. -/
  | none
  /-- INIT: `finish(code, 0, 0)` (R145). -/
  | report
  /-- Inside a transaction: `CLEANUP(e, ph)` (R149, R152, R205). -/
  | cleanup (ph : Phase) (dir : Dir)
  /-- The STOP of the success path: `Err(e, STOP)` (R149, R152). -/
  | stopping (dir : Dir)
  /-- The STOP of CLEANUP: STOP_FAIL, and the original error stays (R205, R206). -/
  | cleaning (e : ErrCode) (ph : Phase) (dir : Dir)
  deriving DecidableEq, Repr

/-- One line of the rules' pseudocode. The sequencer position (R21) is the list of lines still to run. -/
inductive Task where
  /-- `STATUS.FSM_STATE <- f` -/
  | fsm (f : FsmState)
  /-- `STATUS.FSM_STATE <- f ; BITI <- i ; STATUS.BIT_INDEX <- i` -/
  | bit (f : FsmState) (i : BitVec 3)
  /-- `pin_pullup(l)?` (R101) -/
  | pullup (l : Line)
  /-- `pin_low(l)?` (R102) -/
  | low (l : Line)
  /-- `pin_reset(l)` (R104) -/
  | reset (l : Line)
  /-- `sleep(h)` (R105) -/
  | sleepHalf
  /-- `sleep(OPN.delay)` (R184) -/
  | sleepDelay
  /-- `WAIT_CLOCK_HIGH()?`: its first two lines (R106) -/
  | waitHigh
  /-- WAIT_CLOCK_HIGH's loop: the read of SCL and what it decides (R106) -/
  | poll
  /-- WAIT_CLOCK_HIGH's loop: `sleep(P) ; RETRY_LEFT <- RETRY_LEFT - 1` (R106) -/
  | retry
  /-- `a <- pin_read(SDA)?` (R116) -/
  | sampleAck
  /-- `if a != 0: raise Nack` (R116) -/
  | checkAck
  /-- `SHIFT <- 0` (R118) -/
  | clearShift
  /-- `d <- pin_read(SDA)? ; SHIFT <- SHIFT | (zext_8(d) << i)` (R118) -/
  | sampleBit (i : BitVec 3)
  /-- The `on Err` clause that holds from here on. -/
  | onErr (h : Handler)
  /-- The head of TX_WRITE's byte loop, at byte j of n (R149) -/
  | writeData (j n : Nat)
  /-- The head of TX_READ's byte loop, at byte i of n (R152) -/
  | readData (i n : Nat)
  /-- `MemWrite(RXBUF, i, 1, v) ; RX_COUNT.COUNT <- i + 1` (R152) -/
  | storeByte (i : Nat)
  /-- `STATUS.INITIALIZED <- 1 ; finish(NONE, 0, 0)` (R145) -/
  | initDone
  /-- `STATUS.INITIALIZED <- 0 ; finish(NONE, 0, 0)` (R147) -/
  | releaseDone
  /-- The end of DCR: read the raw bytes, decode, store the words, finish (R182) -/
  | decodeRaw
  /-- `finish(code, phase, dir)` (R158) -/
  | finish (e : ErrCode) (ph : Phase) (dir : Dir)
  deriving DecidableEq, Repr

/-- One statement of a host program (R88), after the assembler has put statement numbers for labels, or an event of
the outside world that the host's program order places (log 12). -/
inductive HostOp where
  /-- `wr REG, v`: RegWrite(n, v) -/
  | wr (n : Nat) (v : Word)
  /-- `rd REG -> t`: t <- RegRead(n) -/
  | rd (n : Nat) (t : Nat)
  /-- `bw S, i, v`: BufWrite(S, i, v) -/
  | bw (b : Buf) (i : Nat) (v : Word)
  /-- `br S, i -> t`: t <- BufRead(S, i) -/
  | br (b : Buf) (i : Nat) (t : Nat)
  /-- `if t[hi:lo] = v goto target`, or `!=` when `eq` is false -/
  | branch (t hi lo : Nat) (eq : Bool) (v : Word) (target : Nat)
  /-- `goto target` -/
  | goto (target : Nat)
  /-- `halt` -/
  | halt
  /-- The reset input is asserted (R230). -/
  | reset
  /-- INIT of another instance succeeds (R218): the instance the host knows as k, with these latched pins (log 12). -/
  | peerInit (k : Nat) (scl sda : PinId)
  /-- Another instance, the one the host knows as k, is released or reset (R218; log 12). -/
  | peerRelease (k : Nat)
  deriving DecidableEq, Repr

/-- What one instance must know of another INITIALIZED one (R218): its latched pins, and a number of the model's own that
tells its events from those of the others, since R218 gives no instance identifiers (log 12). -/
structure Peer where
  id : Nat
  scl : PinId
  sda : PinId
  deriving DecidableEq, Repr

/-- A buffer's contents: (index, element) pairs, indices strictly rising. An index that is not listed holds no value:
its WRITTEN bit is clear (R37). `Memory 8` is a list of `Host.Cell`. -/
abbrev Memory (w : Nat) := List (Nat × BitVec w)

end Sys2Proof.Machine
end

