-- ==== Sys2Proof/Machine/State.lean ====
section
/-! DEFINITION. The state: everything 10_state.md gives the block, the other agents as plain data, and the reset state
(R230). -/

namespace Sys2Proof.Machine

/-- The fields of STATUS (R31). BIT_INDEX is a view of BITI (log 8). -/
structure Status where
  busy : Bool
  configured : Bool
  initialized : Bool
  stopFail : Bool
  errCode : ErrCode
  errPhase : Phase
  errDir : Dir
  stretchWait : Bool
  fsm : FsmState
  scl : LineState
  sda : LineState
  deriving DecidableEq, Repr

/-- The register file besides CMD and STATUS (R27), each register as its stored field. -/
structure Regs where
  cfgSclPin : PinId
  cfgSdaPin : PinId
  cfgPeriod : Half
  halfPeriod : Half
  stretchRetries : Byte
  crcInit : Byte
  argCmd : Half
  argDelay : Half
  result : Half
  rxCount : Half
  deriving DecidableEq, Repr

/-- The latched configuration CUR_* (R35). -/
structure Latched where
  sclPin : PinId
  sdaPin : PinId
  period : Half
  half : Half
  retries : Byte
  deriving DecidableEq, Repr

/-- OPN: the operands sampled at acceptance (R141). -/
structure Opn where
  addr : Addr
  n : Half
  cmd16 : Half
  delay : Half
  init : Byte
  deriving DecidableEq, Repr

/-- The sequencer's working state (R36) and position (R21). -/
structure Work where
  shift : Byte
  biti : BitVec 3
  retryLeft : Byte
  byteIdx : Half
  /-- The local `a` of the ACK phase (R116; log 9). -/
  ackBit : Bool
  opn : Opn
  tasks : List Task
  handler : Handler
  deriving DecidableEq, Repr

/-- The host agent (R16, R88): its program, its position in it, and its 32-bit variables. -/
structure HostAgent where
  prog : List HostOp
  pc : Nat
  halted : Bool
  vars : Memory 32
  deriving DecidableEq, Repr

/-- Inputs still to come: the ENV's draws (R26) and the turns of the interleaving (R72). When a list is empty a free
value of Config answers instead (log 3, log 4). -/
structure Env where
  sclDraws : List Bool
  sdaDraws : List Bool
  turns : List Agent
  deriving DecidableEq, Repr

/-- The whole machine. -/
structure State where
  st : Status
  reg : Regs
  cur : Latched
  work : Work
  txbuf : Memory 8
  rxbuf : Memory 8
  wordbuf : Memory 16
  /-- TRACE (R12, R100), oldest action first. -/
  trace : List Action
  host : HostAgent
  env : Env
  /-- The other INITIALIZED instances, each with the pins it holds (R218). -/
  peers : List Peer
  /-- The OPEN parameters of R9; no step changes them. -/
  plat : Platform
  /-- How many free values have been drawn (log 10). -/
  fresh : Nat
  deriving DecidableEq, Repr

/-- Why the machine stops. Each is a fault that the spec itself names for a model, and each is safe: the model stops
where the hardware does something the spec does not say. -/
inductive Fault where
  /-- Raised by a host BufRead and by the commands that read a buffer, on an element nothing has written (R66). Safe. -/
  | unwrittenBuffer (b : Buf) (i : Nat)
  /-- Raised by a host BufWrite while BUSY = 1 (R75). Safe. -/
  | bufferWriteWhileBusy
  /-- Raised by a host write of CMD while BUSY = 1 (R214). Safe. -/
  | commandWhileBusy
  /-- Raised when a second instance becomes INITIALIZED on a pin another INITIALIZED instance holds (R218). Safe. -/
  | sharedPins
  deriving DecidableEq, Repr

/-- Why an instruction has no meaning. -/
inductive Refusal where
  /-- Raised by exec for an instruction with no meaning in the model. Safe. No arm of exec raises it. -/
  | notModelled (mnemonic : String)
  deriving DecidableEq, Repr

/-- Every STATUS field 0 (R230). -/
def Status.reset : Status :=
  { busy := false, configured := false, initialized := false, stopFail := false, errCode := .none, errPhase := .none,
    errDir := .write, stretchWait := false, fsm := .idle, scl := .neutral, sda := .neutral }

/-- Every register 0 but CRC_INIT = 0xFF (R230). -/
def Regs.reset : Regs :=
  { cfgSclPin := 0, cfgSdaPin := 0, cfgPeriod := 0, halfPeriod := 0, stretchRetries := 0, crcInit := 0xFF, argCmd := 0,
    argDelay := 0, result := 0, rxCount := 0 }

/-- Every latched value 0 (R230). -/
def Latched.reset : Latched := { sclPin := 0, sdaPin := 0, period := 0, half := 0, retries := 0 }

/-- Every operand 0 (R230). -/
def Opn.reset : Opn := { addr := 0, n := 0, cmd16 := 0, delay := 0, init := 0 }

/-- Every working value 0 and no command (R230, R21). The spec names no reset value for the local `a` (log 9). -/
def Work.reset : Work :=
  { shift := 0, biti := 0, retryLeft := 0, byteIdx := 0, ackBit := false, opn := Opn.reset, tasks := [],
    handler := .none }

/-- No host program is loaded (log 1, DESIGN CHOICE). -/
def HostAgent.reset : HostAgent := { prog := [], pc := 0, halted := false, vars := [] }

/-- No input is scripted (log 3 and log 4, DESIGN CHOICE). -/
def Env.reset : Env := { sclDraws := [], sdaDraws := [], turns := [] }

/-- The machine right after reset (R230), on the platform of the spec's test vectors (log 2), with no other instance
(log 12) and no free value drawn (log 10). -/
def State.reset : State :=
  { st := Status.reset, reg := Regs.reset, cur := Latched.reset, work := Work.reset, txbuf := [], rxbuf := [],
    wordbuf := [], trace := [], host := HostAgent.reset, env := Env.reset, peers := [],
    plat := Platform.testVectors, fresh := 0 }

end Sys2Proof.Machine
end

