-- ==== Sys2Proof/Machine/Flags.lean ====
section
/-! DEFINITION. STATUS: the codes of its fields (R22, R32, R200, R203), the word the host reads (R31), and the two
updates every command makes to the error fields (R140, R158). -/

namespace Sys2Proof.Machine

/-- R22. -/
def LineState.code : LineState → BitVec 2
  | .neutral => 0
  | .released => 1
  | .drivenLow => 2

/-- R32. -/
def FsmState.code : FsmState → BitVec 4
  | .idle => 0
  | .started => 1
  | .writingBit => 2
  | .ackPhase => 3
  | .readingBit => 4
  | .acknackPhase => 5
  | .stopped => 6
  | .delay => 7
  | .pinSetup => 8

/-- R200. -/
def ErrCode.code : ErrCode → BitVec 4
  | .none => 0
  | .invalidPin => 1
  | .clockTimeout => 2
  | .nack => 3
  | .checksumMismatch => 4
  | .configurationError => 5
  | .commandError => 6

/-- R203. -/
def Phase.code : Phase → BitVec 2
  | .none => 0
  | .address => 1
  | .data => 2
  | .stop => 3

/-- R203. -/
def Dir.code : Dir → BitVec 1
  | .write => 0
  | .read => 1

/-- STATUS.BIT_INDEX: the bit being transferred in WRITING_BIT or READING_BIT, else 0 (R31; log 8). -/
def State.bitIndex (s : State) : BitVec 3 :=
  match s.st.fsm with
  | .writingBit => s.work.biti
  | .readingBit => s.work.biti
  | _ => 0

/-- A one-bit field. -/
def flag (b : Bool) : BitVec 1 := BitVec.ofBool b

/-- The STATUS word, its fields from bit 31 down as R31 lists them; the reserved bits read 0. -/
def State.statusWord (s : State) : Word :=
  0#9 ++ s.bitIndex ++ s.st.sda.code ++ s.st.scl.code ++ s.st.fsm.code ++ flag s.st.stretchWait ++ s.st.errDir.code ++
    s.st.errPhase.code ++ s.st.errCode.code ++ flag s.st.stopFail ++ flag s.st.initialized ++ flag s.st.configured ++
    flag s.st.busy

/-- The first line of acceptance: the error fields and STOP_FAIL are cleared (R140). -/
def State.clearErr (s : State) : State :=
  { s with st := { s.st with errCode := .none, errPhase := .none, errDir := .write, stopFail := false } }

/-- ERR_DIR as finish writes it: 0 when the phase is 0 (R158). -/
def finishDir (ph : Phase) (dir : Dir) : Dir :=
  match ph with
  | .none => .write
  | _ => dir

/-- `finish(code, phase, dir)` (R158): the command ends, the position is "no command" (R21). -/
def State.finish (s : State) (e : ErrCode) (ph : Phase) (dir : Dir) : State :=
  { s with
    st := { s.st with
      errCode := e, errPhase := ph, errDir := finishDir ph dir, fsm := .idle, stretchWait := false, busy := false }
    work := { s.work with biti := 0, tasks := [], handler := .none } }

end Sys2Proof.Machine
end

