-- ==== Sys2Proof/Machine/Micro.lean ====
section
/-! DEFINITION. The Bus Engine's micro-operations (40_bus_engine.md) and the two transactions (41_transactions.md), each
the list of the lines of its pseudocode. A `?` of the rules is in the line's own meaning: it raises (Engine.lean). -/

namespace Sys2Proof.Machine

/-- START (R110). -/
def start : List Task :=
  [.fsm .started, .pullup .scl, .waitHigh, .low .sda, .sleepHalf, .low .scl, .sleepHalf]

/-- STOP (R112): no WAIT_CLOCK_HIGH in it. -/
def stop : List Task :=
  [.fsm .stopped, .low .sda, .sleepHalf, .pullup .scl, .sleepHalf, .pullup .sda, .sleepHalf]

/-- SDA is set to a bit: driven low for 0, released for 1 (R115). -/
def sdaTo (b : Bool) : Task := if b then .pullup .sda else .low .sda

/-- One data bit of WRITE_BYTE (R114). -/
def writeBit (b : Byte) (i : BitVec 3) : List Task :=
  [.bit .writingBit i, .low .scl, sdaTo (b.getLsbD i.toNat), .sleepHalf, .pullup .scl, .sleepHalf, .waitHigh]

/-- The bit indices 7 down to 0 (R64: most significant bit first). -/
def bitsDown : List (BitVec 3) := [7, 6, 5, 4, 3, 2, 1, 0]

/-- The ACK phase of WRITE_BYTE (R116): Nack is raised after the last `pin_low(SCL)`. -/
def ackPhase : List Task :=
  [.bit .ackPhase 0, .low .scl, .pullup .sda, .sleepHalf, .pullup .scl, .waitHigh, .sampleAck, .low .scl, .checkAck]

/-- WRITE_BYTE (R117). -/
def writeByte (b : Byte) : List Task := bitsDown.flatMap (writeBit b) ++ ackPhase

/-- One data bit of READ_BYTE (R118). -/
def readBit (i : BitVec 3) : List Task :=
  [.bit .readingBit i, .sleepHalf, .pullup .scl, .waitHigh, .sampleBit i, .low .scl]

/-- The ACK/NACK phase of READ_BYTE (R119). -/
def acknackPhase (ack : Bool) : List Task :=
  [.bit .acknackPhase 0, sdaTo (!ack), .sleepHalf, .pullup .scl, .sleepHalf, .waitHigh, .low .scl, .pullup .sda]

/-- READ_BYTE (R120); its value is SHIFT. -/
def readByte (ack : Bool) : List Task :=
  [.fsm .readingBit, .pullup .sda, .clearShift] ++ bitsDown.flatMap readBit ++ acknackPhase ack

/-- The address byte of a write transaction (R82). -/
def addrByteWrite (a : Addr) : Byte := a.setWidth 8 <<< 1

/-- The address byte of a read transaction (R82). -/
def addrByteRead (a : Addr) : Byte := a.setWidth 8 <<< 1 ||| 1

/-- TX_WRITE(addr, n) (R149). -/
def txWrite (a : Addr) (n : Nat) : List Task :=
  [.onErr (.cleanup .address .write)] ++ start ++ writeByte (addrByteWrite a) ++
    [.onErr (.cleanup .data .write), .writeData 0 n, .onErr (.stopping .write)] ++ stop

/-- TX_READ(addr, n) (R152). -/
def txRead (a : Addr) (n : Nat) : List Task :=
  [.onErr (.cleanup .address .read)] ++ start ++ writeByte (addrByteRead a) ++
    [.onErr (.cleanup .data .read), .readData 0 n, .onErr (.stopping .read)] ++ stop

end Sys2Proof.Machine
end

