-- ==== Sys2Proof/Machine/Ops.lean ====
section
/-! DEFINITION. The named operations: buffer elements (R38, R66), the ENV's draws (R26), the pin actions (R100 to R105),
raising an error and the cleanup it starts (R13, R205), and the acceptance of a command (R140, R141). -/

namespace Sys2Proof.Machine

/-- What a step or a meaning answers. -/
abbrev Out := Host.Outcome State Fault Refusal

/-! ### Buffers -/

/-- Element i, if anything has written it. -/
def Memory.get? {w : Nat} : Memory w → Nat → Option (BitVec w)
  | [], _ => none
  | (k, v) :: m, i => if i = k then some v else Memory.get? m i

/-- Element i becomes v. -/
def Memory.set {w : Nat} : Memory w → Nat → BitVec w → Memory w
  | [], i, v => [(i, v)]
  | (k, u) :: m, i, v =>
    if i < k then (i, v) :: (k, u) :: m
    else if i = k then (i, v) :: m
    else (k, u) :: Memory.set m i v

/-- The canonical form: indices strictly rising. An unlisted index holds no value, so no entry repeats one. -/
abbrev Memory.wf {w : Nat} (m : Memory w) : Prop := m.Pairwise fun a b => a.1 < b.1

/-- WRITTEN(s, i) (R37). -/
def Memory.written {w : Nat} (m : Memory w) (i : Nat) : Bool := (m.get? i).isSome

/-- The elements i, i+1, ... (count of them), or the first index that nothing has written. -/
def Memory.readFrom {w : Nat} (m : Memory w) : (count i : Nat) → Except Nat (List (BitVec w))
  | 0, _ => .ok []
  | k + 1, i =>
    match m.get? i with
    | none => .error i
    | some v =>
      match Memory.readFrom m k (i + 1) with
      | .ok vs => .ok (v :: vs)
      | .error j => .error j

/-- The elements i, i+1, ... become the listed values, in index order. -/
def Memory.writeFrom {w : Nat} (m : Memory w) (i : Nat) : List (BitVec w) → Memory w
  | [] => m
  | v :: vs => Memory.writeFrom (m.set i v) (i + 1) vs

/-! ### Lines, the ENV and the Pin Driver -/

/-- VALID_PIN (R9, U9): what the platform lists, else a free value. -/
def validPin (p : Platform) (id : PinId) : Bool := (p.pins.lookup id).getD (Config.validPin id)

/-- The latched pin of a line (R12, R35). -/
def State.pinOf (s : State) : Line → PinId
  | .scl => s.cur.sclPin
  | .sda => s.cur.sdaPin

/-- The line-state variable of a line (R22). -/
def State.lineOf (s : State) : Line → LineState
  | .scl => s.st.scl
  | .sda => s.st.sda

/-- The line-state variable of a line becomes v. -/
def State.setLine (s : State) (l : Line) (v : LineState) : State :=
  match l with
  | .scl => { s with st := { s.st with scl := v } }
  | .sda => { s with st := { s.st with sda := v } }

/-- An action is appended to TRACE (R100). -/
def State.act (s : State) (a : Action) : State := { s with trace := s.trace ++ [a] }

/-- One ENV draw for a line (R26): the next scripted one, else a free value. -/
def State.draw (s : State) : Line → Bool × State
  | .scl =>
    match s.env.sclDraws with
    | b :: bs => (b, { s with env := { s.env with sclDraws := bs } })
    | [] => (Config.sclDraw s.fresh, { s with fresh := s.fresh + 1 })
  | .sda =>
    match s.env.sdaDraws with
    | b :: bs => (b, { s with env := { s.env with sdaDraws := bs } })
    | [] => (Config.sdaDraw s.fresh, { s with fresh := s.fresh + 1 })

/-- The level of a line (R26): 0 if the block drives it low, else a draw. -/
def State.level (s : State) (l : Line) : Bool × State :=
  match s.lineOf l with
  | .drivenLow => (false, s)
  | _ => s.draw l

/-- VALID_PIN of the pin latched for a line. -/
def State.pinOk (s : State) (l : Line) : Bool := validPin s.plat (s.pinOf l)

/-- `pin_pullup(l)` (R101). -/
def State.pinPullup (s : State) (l : Line) : Except ErrCode State :=
  if s.pinOk l then .ok ((s.setLine l .released).act (.pu l)) else .error .invalidPin

/-- `pin_low(l)` (R102). -/
def State.pinLow (s : State) (l : Line) : Except ErrCode State :=
  if s.pinOk l then .ok ((s.setLine l .drivenLow).act (.lo l)) else .error .invalidPin

/-- `pin_read(l)` (R103). -/
def State.pinRead (s : State) (l : Line) : Except ErrCode (Bool × State) :=
  if s.pinOk l then .ok ((s.level l).1, (s.level l).2.act (.rd l (s.level l).1)) else .error .invalidPin

/-- `pin_reset(l)` (R104): it never fails, whatever VALID_PIN says. -/
def State.pinReset (s : State) (l : Line) : State := (s.setLine l .neutral).act (.rst l)

/-- `sleep(n)` (R105): it never fails; the model is untimed (R245). -/
def State.sleep (s : State) (ms : Nat) : State := s.act (.slp ms)

/-! ### Other instances -/

/-- A pin is one of the two that another instance holds (R218). -/
def Peer.holds (p : Peer) (pin : PinId) : Bool := p.scl == pin || p.sda == pin

/-- Two other instances have a common pin (R218). -/
def Peer.shares (p q : Peer) : Bool := p.holds q.scl || p.holds q.sda

/-- Another instance has a pin in common with this one's latched pins (R218). -/
def State.sharesWith (s : State) (p : Peer) : Bool := p.holds s.cur.sclPin || p.holds s.cur.sdaPin

/-! ### The sequencer position and errors -/

/-- The lines ts are to run before the rest. -/
def State.push (s : State) (ts : List Task) : State :=
  { s with work := { s.work with tasks := ts ++ s.work.tasks } }

/-- The position becomes ts, under the `on Err` clause h. -/
def State.goTo (s : State) (ts : List Task) (h : Handler) : State :=
  { s with work := { s.work with tasks := ts, handler := h } }

/-- STATUS.STRETCH_WAIT <- b (R106). -/
def State.setStretch (s : State) (b : Bool) : State := { s with st := { s.st with stretchWait := b } }

/-- STATUS.STOP_FAIL <- 1 (R206). -/
def State.setStopFail (s : State) : State := { s with st := { s.st with stopFail := true } }

/-- `raise e` (R13), the block's taking of an exception: nothing left of the operation runs, and control goes to the
`on Err` clause in force. Inside a transaction that is CLEANUP, whose STOP runs before the error is reported (R205);
an error of that STOP sets STOP_FAIL and leaves the original error (R206). -/
def State.raise (s : State) (e : ErrCode) : State :=
  match s.work.handler with
  | .none => s.goTo [.finish e .none .write] .none
  | .report => s.goTo [.finish e .none .write] .none
  | .cleanup ph dir => s.goTo (stop ++ [.finish e ph dir]) (.cleaning e ph dir)
  | .stopping dir => s.goTo [.finish e .stop dir] .none
  | .cleaning e0 ph dir => s.setStopFail.goTo [.finish e0 ph dir] .none

/-! ### Acceptance -/

/-- Acceptance of a legal command (R140, R141): error fields cleared, BUSY set, operands sampled. -/
def State.accepted (s : State) (a : Addr) (n : Half) : State :=
  { s.clearErr with
    st := { s.clearErr.st with busy := true }
    work := { s.work with
      opn := { addr := a, n := n, cmd16 := s.reg.argCmd, delay := s.reg.argDelay, init := s.reg.crcInit } } }

/-- A command turned away (R140): the error fields are cleared and `finish(COMMAND_ERROR, 0, 0)`. -/
def State.turnedAway (s : State) : State := s.clearErr.finish .commandError .none .write

/-- Command issue (R140) for a legal word: a hazard while BUSY = 1 (R214), COMMAND_ERROR when the legality check
refuses it (R142), else the command's rule from the accepted state. -/
def issue (refused : Bool) (a : Addr) (n : Half) (run : State → Out) (s : State) : Out :=
  if s.st.busy then .fault .commandWhileBusy
  else if refused then .next s.turnedAway
  else run (s.accepted a n)

/-- Command issue (R140) for a word that matches no row of R84. -/
def issueIllegal (s : State) : Out :=
  if s.st.busy then .fault .commandWhileBusy else .next s.turnedAway

/-- BUSY = 1 and the sequencer stands at the first of the lines ts. -/
def State.begin (s : State) (ts : List Task) : Out := .next (s.goTo ts .none)

end Sys2Proof.Machine
end

