-- ==== Sys2Proof/Machine/Operands.lean ====
section
/-! DEFINITION. The operands of the commands (R83) and the legality check of each (R142). Lengths are exact naturals, so
3n and 2 + 3n never wrap. -/

namespace Sys2Proof.Machine

/-- The bytes that n words take on the wire, each a word and its CRC: 3n (R142). -/
def rawLen (n : Half) : Nat := 3 * n.toNat

/-- The bytes that ENCODE writes: 2 + 3n (R174). -/
def encodedLen (n : Half) : Nat := 2 + 3 * n.toNat

/-- CONFIGURE is refused unless INITIALIZED = 0 and both lines are NEUTRAL (R142). -/
def State.refusesConfigure (s : State) : Bool :=
  s.st.initialized || decide (s.st.scl ≠ .neutral) || decide (s.st.sda ≠ .neutral)

/-- INIT is refused when CONFIGURED = 0 (R142). -/
def State.refusesInit (s : State) : Bool := !s.st.configured

/-- WRITE and READ are refused when INITIALIZED = 0 or N > BUF_LEN (R142). -/
def State.refusesTransfer (s : State) (n : Half) : Bool :=
  !s.st.initialized || decide (s.plat.bufLen < n.toNat)

/-- CRC8 is refused when N > BUF_LEN (R142). -/
def State.refusesCrc8 (s : State) (n : Half) : Bool := decide (s.plat.bufLen < n.toNat)

/-- ENCODE is refused when N > WBUF_LEN or 2 + 3N > BUF_LEN (R142). -/
def State.refusesEncode (s : State) (n : Half) : Bool :=
  decide (s.plat.wbufLen < n.toNat) || decide (s.plat.bufLen < encodedLen n)

/-- DECODE is refused when N > WBUF_LEN or 3N > BUF_LEN (R142). -/
def State.refusesDecode (s : State) (n : Half) : Bool :=
  decide (s.plat.wbufLen < n.toNat) || decide (s.plat.bufLen < rawLen n)

/-- DCR is refused when INITIALIZED = 0, N > WBUF_LEN or 3N > BUF_LEN (R142). -/
def State.refusesDcr (s : State) (n : Half) : Bool :=
  !s.st.initialized || s.refusesDecode n

/-- `[MemRead(TXBUF, j, 1) for j = 0 to n-1]` (R83; R66 faults). -/
def State.txBytes (s : State) (n : Nat) : Except Fault (List Byte) :=
  match s.txbuf.readFrom n 0 with
  | .ok bs => .ok bs
  | .error i => .error (.unwrittenBuffer .tx i)

/-- `[MemRead(RXBUF, i, 1) for i = 0 to n-1]` (R83; R66 faults). -/
def State.rxBytes (s : State) (n : Nat) : Except Fault (List Byte) :=
  match s.rxbuf.readFrom n 0 with
  | .ok bs => .ok bs
  | .error i => .error (.unwrittenBuffer .rx i)

/-- `[MemRead(WORDBUF, j, 2) for j = 0 to n-1]` (R83; R66 faults). -/
def State.wordArgs (s : State) (n : Nat) : Except Fault (List Half) :=
  match s.wordbuf.readFrom n 0 with
  | .ok ws => .ok ws
  | .error i => .error (.unwrittenBuffer .wb i)

end Sys2Proof.Machine
end

