-- ==== Sys2Proof/Machine/Crc.lean ====
section
/-! DEFINITION. crc8_generator_checker: the CRC-8 (R170, R171), the word encoding (R174) and its check (R176). -/

namespace Sys2Proof.Machine

/-- One of the eight iterations: the bit shifted out decides the XOR and is discarded (R170). -/
def crcShift (c : Byte) : Byte := if c.getLsbD 7 then c <<< 1 ^^^ 0x31 else c <<< 1

/-- The register after one input byte (R170). -/
def crcByte (c b : Byte) : Byte := Nat.repeat crcShift 8 (c ^^^ b)

/-- `crc8(bytes, init)`: no reflection, no final XOR (R170, R171). -/
def crc8 (bytes : List Byte) (init : Byte) : Byte := bytes.foldl crcByte init

/-- `w[15:8]`, the byte sent or stored first (R65). -/
def hiByte (w : Half) : Byte := w.extractLsb' 8 8

/-- `w[7:0]` (R65). -/
def loByte (w : Half) : Byte := w.extractLsb' 0 8

/-- A word and its CRC, three bytes (R65, R174). -/
def wordGroup (init : Byte) (w : Half) : List Byte :=
  [hiByte w, loByte w, crc8 [hiByte w, loByte w] init]

/-- `encode_command(cmd, args)`: the command word carries no CRC (R174). -/
def encodeCommand (cmd : Half) (args : List Half) (init : Byte) : List Byte :=
  [hiByte cmd, loByte cmd] ++ args.flatMap (wordGroup init)

/-- `decode_words(raw, k, init)` on the 3k bytes of raw (R176): `none` is ChecksumMismatch, decided by the first group
that fails (R177). -/
def decodeWords (init : Byte) : List Byte → Option (List Half)
  | hi :: lo :: c :: rest =>
    if crc8 [hi, lo] init = c then (decodeWords init rest).map ((hi ++ lo : Half) :: ·) else none
  | _ => some []

/-- WORDBUF[0..] <- the words ws. -/
def State.putWords (s : State) (ws : List Half) : State := { s with wordbuf := s.wordbuf.writeFrom 0 ws }

/-- The tail that DECODE (R178) and DCR (R182) share, for n words: the raw bytes are read, checked, and only if every
group passes are the words stored. -/
def State.decodeAndFinish (s : State) (n : Half) (init : Byte) : Out :=
  match s.rxBytes (rawLen n) with
  | .error f => .fault f
  | .ok raw =>
    match decodeWords init raw with
    | none => .next (s.finish .checksumMismatch .none .write)
    | some ws => .next ((s.putWords ws).finish .none .none .write)

end Sys2Proof.Machine
end

