-- ==== Sys2Proof/Machine/Engine.lean ====
section
/-! DEFINITION. What each line of the rules' pseudocode does, and the sequencer's step: it runs the next line (R21, R71). -/

namespace Sys2Proof.Machine

/-- STATUS.FSM_STATE <- f. -/
def State.setFsm (s : State) (f : FsmState) : State := { s with st := { s.st with fsm := f } }

/-- BITI <- i. -/
def State.setBiti (s : State) (i : BitVec 3) : State := { s with work := { s.work with biti := i } }

/-- SHIFT <- v. -/
def State.setShift (s : State) (v : Byte) : State := { s with work := { s.work with shift := v } }

/-- RETRY_LEFT <- v. -/
def State.setRetryLeft (s : State) (v : Byte) : State := { s with work := { s.work with retryLeft := v } }

/-- The local `a` of the ACK phase (R116). -/
def State.setAckBit (s : State) (b : Bool) : State := { s with work := { s.work with ackBit := b } }

/-- The `on Err` clause in force. -/
def State.setHandler (s : State) (h : Handler) : State := { s with work := { s.work with handler := h } }

/-- The lines still to run. -/
def State.setTasks (s : State) (ts : List Task) : State := { s with work := { s.work with tasks := ts } }

/-- The pin actions that can fail: the next line runs on success, else the error is raised (R13). -/
def orRaise (s : State) : Except ErrCode State → Out
  | .ok s' => .next s'
  | .error e => .next (s.raise e)

/-- The loop body of WAIT_CLOCK_HIGH (R106), its sleep and count left to `retry`. -/
def runPoll (s : State) : Out :=
  match s.pinRead .scl with
  | .error e => .next ((s.setStretch false).raise e)
  | .ok (true, s') => .next (s'.setStretch false)
  | .ok (false, s') =>
    if s'.work.retryLeft = 0 then .next ((s'.setStretch false).raise .clockTimeout)
    else .next (s'.push [.retry, .poll])

/-- The sample of the slave's ACK bit (R116). -/
def runSampleAck (s : State) : Out :=
  match s.pinRead .sda with
  | .error e => .next (s.raise e)
  | .ok (a, s') => .next (s'.setAckBit a)

/-- The sample of a data bit (R118). -/
def runSampleBit (i : BitVec 3) (s : State) : Out :=
  match s.pinRead .sda with
  | .error e => .next (s.raise e)
  | .ok (d, s') => .next (s'.setShift (s'.work.shift ||| (BitVec.ofBool d).setWidth 8 <<< i.toNat))

/-- `BYTE_IDX <- i` (R149, R152). -/
def State.setByteIdx (s : State) (i : Nat) : State :=
  { s with work := { s.work with byteIdx := BitVec.ofNat 16 i } }

/-- The head of TX_WRITE's byte loop (R149). -/
def runWriteData (j n : Nat) (s : State) : Out :=
  if j < n then
    match s.txbuf.get? j with
    | none => .fault (.unwrittenBuffer .tx j)
    | some b =>
      .next ((s.setByteIdx j).push (writeByte b ++ [.writeData (j + 1) n]))
  else .next s

/-- The head of TX_READ's byte loop (R152): the last byte is NACKed (R154). -/
def runReadData (i n : Nat) (s : State) : Out :=
  if i < n then
    .next ((s.setByteIdx i).push (readByte (decide (i + 1 < n)) ++ [.storeByte i, .readData (i + 1) n]))
  else .next s

/-- A byte read goes to RXBUF and is counted (R152). -/
def State.storeByte (s : State) (i : Nat) : State :=
  { s with rxbuf := s.rxbuf.set i s.work.shift, reg := { s.reg with rxCount := BitVec.ofNat 16 (i + 1) } }

/-- STATUS.INITIALIZED <- b (R145, R147). -/
def State.setInitialized (s : State) (b : Bool) : State := { s with st := { s.st with initialized := b } }

/-- INIT's end (R145): a second instance INITIALIZED on a pin another one holds is the fault SharedPins (R218; log 13). -/
def runInitDone (s : State) : Out :=
  if s.peers.any s.sharesWith then .fault .sharedPins
  else .next ((s.setInitialized true).finish .none .none .write)

/-- RELEASE's end (R147). -/
def State.releaseDone (s : State) : State :=
  (s.setInitialized false).finish .none .none .write

/-- One line of the pseudocode, run from a state whose position is already past it. -/
def runTask (t : Task) (s : State) : Out :=
  match t with
  | .fsm f => .next (s.setFsm f)
  | .bit f i => .next ((s.setFsm f).setBiti i)
  | .pullup l => orRaise s (s.pinPullup l)
  | .low l => orRaise s (s.pinLow l)
  | .reset l => .next (s.pinReset l)
  | .sleepHalf => .next (s.sleep s.cur.half.toNat)
  | .sleepDelay => .next (s.sleep s.work.opn.delay.toNat)
  | .waitHigh => .next (((s.setStretch true).setRetryLeft s.cur.retries).push [.poll])
  | .poll => runPoll s
  | .retry =>
    .next ((s.sleep s.cur.period.toNat).setRetryLeft (s.work.retryLeft - 1))
  | .sampleAck => runSampleAck s
  | .checkAck => if s.work.ackBit then .next (s.raise .nack) else .next s
  | .clearShift => .next (s.setShift 0)
  | .sampleBit i => runSampleBit i s
  | .onErr h => .next (s.setHandler h)
  | .writeData j n => runWriteData j n s
  | .readData i n => runReadData i n s
  | .storeByte i => .next (s.storeByte i)
  | .initDone => runInitDone s
  | .releaseDone => .next s.releaseDone
  | .decodeRaw => s.decodeAndFinish s.work.opn.n s.work.opn.init
  | .finish e ph dir => .next (s.finish e ph dir)

/-- The sequencer's step: the next line of the pseudocode. With no line left there is nothing to do (log 14). -/
def seqStep (s : State) : Out :=
  match s.work.tasks with
  | [] => .next s
  | t :: rest => runTask t (s.setTasks rest)

end Sys2Proof.Machine
end

