-- ==== Sys2Proof/Machine/Transactions.lean ====
section
/-! DEFINITION. WRITE and READ (41_transactions.md §3). -/

namespace Sys2Proof.Machine

/-- WRITE's lines (R150). -/
def writeTasks (o : Opn) : List Task := txWrite o.addr o.n.toNat ++ [.finish .none .none .write]

/-- WRITE (R150). -/
def execWrite (a : Addr) (n : Half) (s : State) : Out :=
  issue (s.refusesTransfer n) a n (fun s => s.begin (writeTasks s.work.opn)) s

/-- RX_COUNT.COUNT <- 0, in the acceptance step (R153, R182). -/
def State.clearRxCount (s : State) : State := { s with reg := { s.reg with rxCount := 0 } }

/-- READ's lines (R153). -/
def readTasks (o : Opn) : List Task := txRead o.addr o.n.toNat ++ [.finish .none .none .read]

/-- READ (R153). -/
def execRead (a : Addr) (n : Half) (s : State) : Out :=
  issue (s.refusesTransfer n) a n (fun s => s.clearRxCount.begin (readTasks s.work.opn)) s

end Sys2Proof.Machine
end

