-- ==== Sys2Proof/Machine/Framing.lean ====
section
/-! DEFINITION. CRC8, ENCODE, DECODE and DCR (42_framing.md). The first three complete in one step (D40). -/

namespace Sys2Proof.Machine

/-- RESULT.VALUE <- v. -/
def State.setResult (s : State) (v : Half) : State := { s with reg := { s.reg with result := v } }

/-- TXBUF[0..] <- the bytes bs. -/
def State.putTx (s : State) (bs : List Byte) : State := { s with txbuf := s.txbuf.writeFrom 0 bs }

/-- CRC8's rule (R172). -/
def runCrc8 (s : State) : Out :=
  match s.txBytes s.work.opn.n.toNat with
  | .error f => .fault f
  | .ok bs => .next ((s.setResult ((crc8 bs s.work.opn.init).setWidth 16)).finish .none .none .write)

/-- CRC8 (R172). -/
def execCrc8 (n : Half) (s : State) : Out := issue (s.refusesCrc8 n) 0 n runCrc8 s

/-- ENCODE's rule (R175). -/
def runEncode (s : State) : Out :=
  match s.wordArgs s.work.opn.n.toNat with
  | .error f => .fault f
  | .ok args =>
    .next (((s.putTx (encodeCommand s.work.opn.cmd16 args s.work.opn.init)).setResult
      (BitVec.ofNat 16 (encodedLen s.work.opn.n))).finish .none .none .write)

/-- ENCODE (R175). -/
def execEncode (n : Half) (s : State) : Out := issue (s.refusesEncode n) 0 n runEncode s

/-- DECODE (R178). -/
def execDecode (n : Half) (s : State) : Out :=
  issue (s.refusesDecode n) 0 n (fun s => s.decodeAndFinish s.work.opn.n s.work.opn.init) s

/-- DCR's part of the acceptance step: RX_COUNT <- 0 and TXBUF[0..2) <- the command word (R182). -/
def State.dcrPrepare (s : State) : State :=
  s.clearRxCount.putTx (encodeCommand s.work.opn.cmd16 [] s.work.opn.init)

/-- DCR's lines after acceptance (R182); the delay runs with FSM_STATE = DELAY (R184). -/
def dcrTasks (o : Opn) : List Task :=
  txWrite o.addr 2 ++ [.fsm .delay, .sleepDelay] ++ txRead o.addr (rawLen o.n) ++ [.decodeRaw]

/-- DCR (R182). -/
def execDcr (a : Addr) (n : Half) (s : State) : Out :=
  issue (s.refusesDcr n) a n (fun s => s.dcrPrepare.begin (dcrTasks s.work.opn)) s

end Sys2Proof.Machine
end

