-- ==== Sys2Proof/Machine/Lifecycle.lean ====
section
/-! DEFINITION. CONFIGURE, INIT and RELEASE (41_transactions.md §2). -/

namespace Sys2Proof.Machine

/-- A configuration that CONFIGURE rejects: period 0, half period 0, or one pin for both lines (R143). -/
def Regs.degenerate (r : Regs) : Bool :=
  decide (r.cfgPeriod.toNat = 0) || decide (r.cfgPeriod.toNat / 2 = 0) || decide (r.cfgSclPin = r.cfgSdaPin)

/-- floor(p / 2) (R143). -/
def halfOf (p : Half) : Half := BitVec.ofNat 16 (p.toNat / 2)

/-- floor(150 / p), the stretch retry budget (R7, R107, R143). -/
def retriesOf (p : Half) : Byte := BitVec.ofNat 8 (150 / p.toNat)

/-- CONFIGURE's latching (R143). -/
def State.latch (s : State) : State :=
  { s with
    cur := { sclPin := s.reg.cfgSclPin, sdaPin := s.reg.cfgSdaPin, period := s.reg.cfgPeriod,
             half := halfOf s.reg.cfgPeriod, retries := retriesOf s.reg.cfgPeriod }
    reg := { s.reg with halfPeriod := halfOf s.reg.cfgPeriod, stretchRetries := retriesOf s.reg.cfgPeriod } }

/-- STATUS.CONFIGURED <- b (R143). -/
def State.setConfigured (s : State) (b : Bool) : State := { s with st := { s.st with configured := b } }

/-- CONFIGURE's rule (R143), in one step. -/
def runConfigure (s : State) : Out :=
  if s.reg.degenerate then .next ((s.setConfigured false).finish .configurationError .none .write)
  else .next ((s.latch.setConfigured true).finish .none .none .write)

/-- CONFIGURE (R143). -/
def execConfigure (s : State) : Out := issue s.refusesConfigure 0 0 runConfigure s

/-- INIT's pin actions, SCL first (R145, R146). -/
def initTasks : List Task := [.onErr .report, .fsm .pinSetup, .pullup .scl, .pullup .sda, .initDone]

/-- INIT (R145). -/
def execInit (s : State) : Out := issue s.refusesInit 0 0 (fun s => s.begin initTasks) s

/-- RELEASE's lines: no pin action while CONFIGURED = 0 (R147). -/
def releaseTasks (configured : Bool) : List Task :=
  if configured then [.fsm .pinSetup, .reset .scl, .reset .sda, .releaseDone] else [.releaseDone]

/-- RELEASE (R147), which the legality check never refuses. -/
def execRelease (s : State) : Out := issue false 0 0 (fun s => s.begin (releaseTasks s.st.configured)) s

end Sys2Proof.Machine
end

