-- ==== Sys2Proof/Machine/Dispatch.lean ====
section
/-! DEFINITION. One arm per command of the opcode table. -/

namespace Sys2Proof.Machine

def exec (i : Instr) (s : State) : Host.Outcome State Fault Refusal :=
  match i with
  | .configure => Sys2Proof.Machine.execConfigure s
  | .init => Sys2Proof.Machine.execInit s
  | .release => Sys2Proof.Machine.execRelease s
  | .write a n => Sys2Proof.Machine.execWrite a n s
  | .read a n => Sys2Proof.Machine.execRead a n s
  | .crc8 n => Sys2Proof.Machine.execCrc8 n s
  | .encode n => Sys2Proof.Machine.execEncode n s
  | .decode n => Sys2Proof.Machine.execDecode n s
  | .dcr a n => Sys2Proof.Machine.execDcr a n s

end Sys2Proof.Machine
end

