-- ==== Sys2Proof/Machine/HostOps.lean ====
section
/-! DEFINITION. The host's accesses (R27, R28, R60 to R63, R66, R75, R76), the reset input (R230), the other instances'
events (R218), and one statement of the host's program (R88). -/

namespace Sys2Proof.Machine

/-- `RegRead(n)` (R27, R28): CMD, the reserved registers and every number above 15 read 0 (R63). -/
def State.regRead (s : State) (n : Nat) : Word :=
  match n with
  | 1 => s.statusWord
  | 2 => s.reg.cfgSclPin.setWidth 32
  | 3 => s.reg.cfgSdaPin.setWidth 32
  | 4 => s.reg.cfgPeriod.setWidth 32
  | 5 => s.reg.halfPeriod.setWidth 32
  | 6 => s.reg.stretchRetries.setWidth 32
  | 7 => s.reg.crcInit.setWidth 32
  | 8 => s.reg.argCmd.setWidth 32
  | 9 => s.reg.argDelay.setWidth 32
  | 10 => s.reg.result.setWidth 32
  | 11 => s.reg.rxCount.setWidth 32
  | _ => 0

/-- What a host write stores in the register file besides CMD (R28): only the field's bits of a read-write register;
every other register ignores the write. -/
def Regs.write (r : Regs) (n : Nat) (v : Word) : Regs :=
  match n with
  | 2 => { r with cfgSclPin := v.setWidth 16 }
  | 3 => { r with cfgSdaPin := v.setWidth 16 }
  | 4 => { r with cfgPeriod := v.setWidth 16 }
  | 7 => { r with crcInit := v.setWidth 8 }
  | 8 => { r with argCmd := v.setWidth 16 }
  | 9 => { r with argDelay := v.setWidth 16 }
  | _ => r

/-- A write to CMD: command issue (R140). -/
def issueWord (w : Word) (s : State) : Out :=
  match decode? w with
  | some i => exec i s
  | none => issueIllegal s

/-- `RegWrite(n, v)` (R61). -/
def regWrite (n : Nat) (v : Word) (s : State) : Out :=
  if n = 0 then issueWord v s else .next { s with reg := s.reg.write n v }

/-- The size of a buffer (R38). -/
def State.bufSize (s : State) : Buf → Nat
  | .tx => s.plat.bufLen
  | .rx => s.plat.bufLen
  | .wb => s.plat.wbufLen

/-- Element i of a buffer, zero-extended to 32 bits (R61), if written. -/
def State.element (s : State) (b : Buf) (i : Nat) : Option Word :=
  match b with
  | .tx => (s.txbuf.get? i).map (·.setWidth 32)
  | .rx => (s.rxbuf.get? i).map (·.setWidth 32)
  | .wb => (s.wordbuf.get? i).map (·.setWidth 32)

/-- RXBUF and WORDBUF may change under a running command; TXBUF does not (R76). -/
def Buf.racy : Buf → Bool
  | .tx => false
  | .rx => true
  | .wb => true

/-- `t <- v` for a host variable (R88). -/
def State.setVar (s : State) (t : Nat) (v : Word) : State :=
  { s with host := { s.host with vars := s.host.vars.set t v } }

/-- The value of a host variable; before any assignment a free value (log 11). -/
def State.var (s : State) (t : Nat) : Word := (s.host.vars.get? t).getD (Config.hostVar t)

/-- `t <- BufRead(b, i)`: while BUSY = 1 a read of RXBUF or WORDBUF gives a free value (R76); out of range it gives 0
(R63); an unwritten element faults (R66). -/
def bufRead (b : Buf) (i t : Nat) (s : State) : Out :=
  if s.st.busy && b.racy then .next { s.setVar t (Config.busyRead s.fresh) with fresh := s.fresh + 1 }
  else if s.bufSize b ≤ i then .next (s.setVar t 0)
  else
    match s.element b i with
    | none => .fault (.unwrittenBuffer b i)
    | some v => .next (s.setVar t v)

/-- Element i of a buffer becomes the low bits of v (R61). -/
def State.putElement (s : State) (b : Buf) (i : Nat) (v : Word) : State :=
  match b with
  | .tx => { s with txbuf := s.txbuf.set i (v.setWidth 8) }
  | .rx => { s with rxbuf := s.rxbuf.set i (v.setWidth 8) }
  | .wb => { s with wordbuf := s.wordbuf.set i (v.setWidth 16) }

/-- `BufWrite(b, i, v)`: undefined while BUSY = 1 (R75); ignored out of range (R63). -/
def bufWrite (b : Buf) (i : Nat) (v : Word) (s : State) : Out :=
  if s.st.busy then .fault .bufferWriteWhileBusy
  else if s.bufSize b ≤ i then .next s
  else .next (s.putElement b i v)

/-- `t[hi:lo]`, zero-extended (R10). -/
def bitField (v : Word) (hi lo : Nat) : Nat := v.toNat / 2 ^ lo % 2 ^ (hi + 1 - lo)

/-- The reset input (R230): every piece of the block's state takes its reset value, with no pin action and no STOP
(R233). The host, the ENV, the platform and the other instances are not the block's. -/
def State.resetBlock (s : State) : State :=
  { State.reset with host := s.host, env := s.env, peers := s.peers, plat := s.plat, fresh := s.fresh }

/-- The instance k as its INIT finds it: its latched pins are those it holds if it is INITIALIZED already, since CONFIGURE
is then refused (R142, R204), else the given ones. -/
def State.peerOf (s : State) (k : Nat) (scl sda : PinId) : Peer :=
  (s.peers.find? fun q => q.id == k).getD { id := k, scl := scl, sda := sda }

/-- The instance p is INITIALIZED; one that is so already stays as it was (R145: INIT is idempotent). -/
def State.addPeer (s : State) (p : Peer) : State :=
  { s with peers := if s.peers.any (fun q => q.id == p.id) then s.peers else p :: s.peers }

/-- INIT of the instance k succeeds: the fault SharedPins if this INITIALIZED instance, or another INITIALIZED one, has a
pin in common with it (R218; logs 12 and 13). -/
def peerInit (k : Nat) (scl sda : PinId) (s : State) : Out :=
  if s.st.initialized && s.sharesWith (s.peerOf k scl sda) ||
      s.peers.any (fun q => q.id != k && q.shares (s.peerOf k scl sda)) then .fault .sharedPins
  else .next (s.addPeer (s.peerOf k scl sda))

/-- The instance k is no longer INITIALIZED, by its RELEASE or its reset, and holds no pin (R147, R218, R230). -/
def State.peerRelease (s : State) (k : Nat) : State :=
  { s with peers := s.peers.filter fun q => q.id != k }

/-- The host program continues at statement k. -/
def State.jump (s : State) (k : Nat) : State := { s with host := { s.host with pc := k } }

/-- The host program continues at its next statement. -/
def State.nextStmt (s : State) : State := s.jump (s.host.pc + 1)

/-- The host program has ended. -/
def State.stopHost (s : State) : State := { s with host := { s.host with halted := true } }

/-- One statement of the host's program (R88). -/
def runHostOp (o : HostOp) (s : State) : Out :=
  match o with
  | .wr n v => regWrite n v s.nextStmt
  | .rd n t => .next (s.nextStmt.setVar t (s.regRead n))
  | .bw b i v => bufWrite b i v s.nextStmt
  | .br b i t => bufRead b i t s.nextStmt
  | .branch t hi lo eq v k =>
    .next (if (bitField (s.var t) hi lo == v.toNat) == eq then s.jump k else s.nextStmt)
  | .goto k => .next (s.jump k)
  | .halt => .next s.stopHost
  | .reset => .next s.nextStmt.resetBlock
  | .peerInit k scl sda => peerInit k scl sda s.nextStmt
  | .peerRelease k => .next (s.nextStmt.peerRelease k)

/-- The host's next statement, if its program has not ended. -/
def State.hostOp? (s : State) : Option HostOp :=
  if s.host.halted then none else s.host.prog[s.host.pc]?

/-- Who moves when both the host and the sequencer can (R72): the next scripted turn, else a free value. -/
def State.takeTurn (s : State) : Agent × State :=
  match s.env.turns with
  | a :: as => (a, { s with env := { s.env with turns := as } })
  | [] => (if Config.hostFirst s.fresh then .host else .sequencer, { s with fresh := s.fresh + 1 })

end Sys2Proof.Machine
end

