-- ==== Sys2Proof/Machine/Step.lean ====
section
/-! DEFINITION. One step of the machine: an access of the host, or the sequencer's next line (R17, R71, R72). While
BUSY = 0 the sequencer does nothing (R220); with no host statement left either, the machine waits unchanged (R234). -/

namespace Sys2Proof.Machine

def step (s : State) : Host.Outcome State Fault Refusal :=
  match s.hostOp? with
  | none => if s.st.busy then seqStep s else .next s
  | some o =>
    if s.st.busy then
      match s.takeTurn with
      | (.host, s') => runHostOp o s'
      | (.sequencer, s') => seqStep s'
    else runHostOp o s

/-- The block fetches nothing (R21): a command runs when the host writes its word to CMD. So the word is placed as the
host's next statement, `wr CMD, w`; while BUSY = 1 the host's turn is placed with it (log 1). The host's variables, of
which that statement reads none, stay as they are (log 11, DESIGN CHOICE). -/
def State.withFetchWord (s : State) (nbits w : Nat) : State :=
  { s with
    host := { s.host with prog := [.wr 0 (BitVec.ofNat 32 (w % 2 ^ nbits))], pc := 0, halted := false }
    env := { s.env with turns := if s.st.busy then .host :: s.env.turns else s.env.turns } }

end Sys2Proof.Machine
end

