-- ==== Sys2Proof/Machine/Assembler.lean ====
section
/-! DEFINITION. The host's assembly text (R88) and its pseudo-instructions (R89), assembled into the statements the host
agent runs. -/

namespace Sys2Proof.Machine

/-- The register names of R27. -/
inductive Reg where
  | CMD
  | STATUS
  | CFG_SCL_PIN
  | CFG_SDA_PIN
  | CFG_CLOCK_PERIOD_MS
  | HALF_PERIOD_MS
  | STRETCH_RETRIES
  | CRC_INIT
  | ARG_CMD
  | ARG_DELAY_MS
  | RESULT
  | RX_COUNT
  deriving DecidableEq, Repr

/-- A line of a host program (R88), or a pseudo-instruction (R89). Operands are raw numbers; labels and host variables
are named by numbers. -/
inductive Stmt where
  | wr (r : Reg) (v : Nat)
  | rd (r : Reg) (t : Nat)
  | bw (b : Buf) (i v : Nat)
  | br (b : Buf) (i t : Nat)
  | label (l : Nat)
  | ifEq (t hi lo v l : Nat)
  | ifNe (t hi lo v l : Nat)
  | goto (l : Nat)
  | halt
  | CONFIGURE
  | INIT
  | RELEASE
  | WRITE (a n : Nat)
  | READ (a n : Nat)
  | CRC8 (n : Nat)
  | ENCODE (n : Nat)
  | DECODE (n : Nat)
  | DCR (a n : Nat)
  /-- The event of log 12, which is no line of R88. -/
  | reset
  | WAIT_IDLE
  | SETUP (scl sda p ci : Nat)
  | PROBE (a : Nat)
  | SEND16 (a c : Nat)
  | CMDREAD (a c d k : Nat)
  deriving DecidableEq, Repr

/-- Where a branch goes: to a label, or a number of statements back (the local label of WAIT_IDLE). -/
inductive Target where
  | label (l : Nat)
  | back (k : Nat)
  deriving DecidableEq, Repr

/-- A statement whose branch target is not yet a number, or a label. -/
inductive AsmLine where
  | op (o : HostOp)
  | label (l : Nat)
  | branch (t hi lo : Nat) (eq : Bool) (v : Word) (target : Target)
  | goto (target : Target)
  deriving DecidableEq, Repr

/-- The register numbers of R27. -/
def Reg.num : Reg → Nat
  | .CMD => 0
  | .STATUS => 1
  | .CFG_SCL_PIN => 2
  | .CFG_SDA_PIN => 3
  | .CFG_CLOCK_PERIOD_MS => 4
  | .HALF_PERIOD_MS => 5
  | .STRETCH_RETRIES => 6
  | .CRC_INIT => 7
  | .ARG_CMD => 8
  | .ARG_DELAY_MS => 9
  | .RESULT => 10
  | .RX_COUNT => 11

/-- What an assembler checks of a line: `a` ≤ 0x7F, `n` ≤ 0xFFFF (R88), a bit range inside a host variable, a value
inside 32 bits. -/
def Stmt.wellFormed : Stmt → Bool
  | .wr _ v => fitsWord v
  | .rd _ _ => true
  | .bw _ _ v => fitsWord v
  | .br _ _ _ => true
  | .label _ => true
  | .ifEq _ hi lo v _ => fitsRange hi lo && fitsWord v
  | .ifNe _ hi lo v _ => fitsRange hi lo && fitsWord v
  | .goto _ => true
  | .halt => true
  | .CONFIGURE => true
  | .INIT => true
  | .RELEASE => true
  | .WRITE a n => fitsAddr a && fitsCount n
  | .READ a n => fitsAddr a && fitsCount n
  | .CRC8 n => fitsCount n
  | .ENCODE n => fitsCount n
  | .DECODE n => fitsCount n
  | .DCR a n => fitsAddr a && fitsCount n
  | .reset => true
  | .WAIT_IDLE => true
  | .SETUP scl sda p ci => fitsWord scl && fitsWord sda && fitsWord p && fitsWord ci
  | .PROBE a => fitsAddr a
  | .SEND16 a c => fitsAddr a && fitsWord c
  | .CMDREAD a c d k => fitsAddr a && fitsWord c && fitsWord d && fitsCount k

/-- `wr REG, v`. -/
def wrLine (r : Reg) (v : Nat) : AsmLine := .op (.wr r.num (BitVec.ofNat 32 v))

/-- A command's line: `wr CMD, <its word>` (R88). -/
def cmdLine (i : Instr) : AsmLine := .op (.wr 0 (encode i))

/-- `L: rd STATUS -> t ; if t[0] = 1 goto L` (R89), with t the host variable 0 (log 15). -/
def waitIdle : List AsmLine := [.op (.rd 1 0), .branch 0 0 0 true 1 (.back 1)]

/-- The lines of a statement; a pseudo-instruction's are its expansion (R89). -/
def Stmt.lines : Stmt → List AsmLine
  | .wr r v => [wrLine r v]
  | .rd r t => [.op (.rd r.num t)]
  | .bw b i v => [.op (.bw b i (BitVec.ofNat 32 v))]
  | .br b i t => [.op (.br b i t)]
  | .label l => [.label l]
  | .ifEq t hi lo v l => [.branch t hi lo true (BitVec.ofNat 32 v) (.label l)]
  | .ifNe t hi lo v l => [.branch t hi lo false (BitVec.ofNat 32 v) (.label l)]
  | .goto l => [.goto (.label l)]
  | .halt => [.op .halt]
  | .CONFIGURE => [cmdLine .configure]
  | .INIT => [cmdLine .init]
  | .RELEASE => [cmdLine .release]
  | .WRITE a n => [cmdLine (.write (BitVec.ofNat 7 a) (BitVec.ofNat 16 n))]
  | .READ a n => [cmdLine (.read (BitVec.ofNat 7 a) (BitVec.ofNat 16 n))]
  | .CRC8 n => [cmdLine (.crc8 (BitVec.ofNat 16 n))]
  | .ENCODE n => [cmdLine (.encode (BitVec.ofNat 16 n))]
  | .DECODE n => [cmdLine (.decode (BitVec.ofNat 16 n))]
  | .DCR a n => [cmdLine (.dcr (BitVec.ofNat 7 a) (BitVec.ofNat 16 n))]
  | .reset => [.op .reset]
  | .WAIT_IDLE => waitIdle
  | .SETUP scl sda p ci =>
    [wrLine .CFG_SCL_PIN scl, wrLine .CFG_SDA_PIN sda, wrLine .CFG_CLOCK_PERIOD_MS p, wrLine .CRC_INIT ci,
      cmdLine .configure] ++ waitIdle ++ [cmdLine .init] ++ waitIdle
  | .PROBE a => [cmdLine (.read (BitVec.ofNat 7 a) 0)] ++ waitIdle
  | .SEND16 a c =>
    [.op (.bw .tx 0 (BitVec.ofNat 32 (c / 256))), .op (.bw .tx 1 (BitVec.ofNat 32 (c % 256))),
      cmdLine (.write (BitVec.ofNat 7 a) 2)] ++ waitIdle
  | .CMDREAD a c d k =>
    [wrLine .ARG_CMD c, wrLine .ARG_DELAY_MS d, cmdLine (.dcr (BitVec.ofNat 7 a) (BitVec.ofNat 16 k))] ++ waitIdle

/-- The number of the statement that label l names, the first of the lines being number pos. -/
def findLabel (l : Nat) : List AsmLine → Nat → Option Nat
  | [], _ => none
  | .label k :: ls, pos => if k = l then some pos else findLabel l ls pos
  | _ :: ls, pos => findLabel l ls (pos + 1)

/-- The labels of the lines, in order. -/
def labelsOf : List AsmLine → List Nat
  | [] => []
  | .label k :: ls => k :: labelsOf ls
  | _ :: ls => labelsOf ls

/-- The statement number of a target, for a branch that is statement pos. -/
def Target.resolve (all : List AsmLine) (pos : Nat) : Target → Option Nat
  | .label l => findLabel l all 0
  | .back k => some (pos - k)

/-- The statements of the lines, the first being number pos; `none` when a label is missing. -/
def resolveLines (all : List AsmLine) : List AsmLine → Nat → Option (List HostOp)
  | [], _ => some []
  | .label _ :: ls, pos => resolveLines all ls pos
  | .op o :: ls, pos => (resolveLines all ls (pos + 1)).map (o :: ·)
  | .branch t hi lo eq v tgt :: ls, pos =>
    match tgt.resolve all pos, resolveLines all ls (pos + 1) with
    | some k, some os => some (.branch t hi lo eq v k :: os)
    | _, _ => none
  | .goto tgt :: ls, pos =>
    match tgt.resolve all pos, resolveLines all ls (pos + 1) with
    | some k, some os => some (.goto k :: os)
    | _, _ => none

/-- The assembler (R88, R89). It refuses an ill-formed operand, a missing label and a label given twice (log 15). -/
def assemble (p : List Stmt) : Option (List HostOp) :=
  if p.all Stmt.wellFormed && decide (labelsOf (p.flatMap Stmt.lines)).Nodup then
    resolveLines (p.flatMap Stmt.lines) (p.flatMap Stmt.lines) 0
  else none

/-- A state whose host is about to run the program. Variables are local to a host program (R88), so a new program starts
with none assigned, and an unassigned one has a free value (log 11, DESIGN CHOICE). -/
def State.loadProgram (s : State) (p : List HostOp) : State :=
  { s with host := { prog := p, pc := 0, halted := false, vars := [] } }

end Sys2Proof.Machine
end

