-- ==== Sys2Proof/Safety.lean ====
section
/-! DEFINITION. The terms claims use: what holds in every state a run reaches, the traces the rules' worked examples
give, and the bound on a command's steps. -/

namespace Sys2Proof.Safety

open Sys2Proof.Machine

/-! ### Runs -/

/-- A run of the machine leads from s to t. -/
def Reaches (s t : State) : Prop := ∃ k, Host.Core.run Sys2Proof.core k s = .next t

/-- A run of the machine from s ends in a fault. -/
def ReachesFault (s : State) (f : Fault) : Prop := ∃ k, Host.Core.run Sys2Proof.core k s = .fault f

/-- The host has no statement left, so every step while BUSY = 1 is the sequencer's. -/
def HostDone (s : State) : Prop := s.hostOp? = none

/-- The Pin Driver accepts both latched pins. -/
def PinsValid (s : State) : Prop := s.pinOk .scl = true ∧ s.pinOk .sda = true

/-! ### The sequencer position -/

/-- The lines that end a command. -/
def endsCommand : Task → Bool
  | .initDone => true
  | .releaseDone => true
  | .decodeRaw => true
  | .finish _ _ _ => true
  | _ => false

/-- The position of a command always ends with the line that ends the command; with BUSY = 0 there is no command, and
FSM_STATE, BITI and STRETCH_WAIT show none (R21, R32, R158). -/
def PositionInv (s : State) : Prop :=
  (s.st.busy = true → ∃ ts t, s.work.tasks = ts ++ [t] ∧ endsCommand t = true) ∧
  (s.st.busy = false →
    s.work.tasks = [] ∧ s.work.handler = .none ∧ s.st.fsm = .idle ∧ s.work.biti = 0 ∧ s.st.stretchWait = false)

/-- The lines of WAIT_CLOCK_HIGH's loop. -/
def inWait : Task → Bool
  | .poll => true
  | .retry => true
  | _ => false

/-- STRETCH_WAIT is 1 exactly while the sequencer stands in WAIT_CLOCK_HIGH's loop (R31, R106). -/
def StretchInv (s : State) : Prop :=
  (s.st.stretchWait = true →
    ∃ r, (s.work.tasks = .poll :: r ∨ s.work.tasks = .retry :: .poll :: r) ∧ r.all (fun t => !inWait t) = true) ∧
  (s.st.stretchWait = false → s.work.tasks.all (fun t => !inWait t) = true)

/-! ### Configuration and pins -/

/-- HALF_PERIOD_MS and STRETCH_RETRIES show CUR_HALF and CUR_RETRIES (R35). -/
def MirrorInv (s : State) : Prop :=
  s.reg.halfPeriod = s.cur.half ∧ s.reg.stretchRetries = s.cur.retries

/-- The lines of the pseudocode that need a configuration: all that touch a pin, or lead to one that does. -/
def needsConfig : Task → Bool
  | .pullup _ => true
  | .low _ => true
  | .reset _ => true
  | .waitHigh => true
  | .poll => true
  | .sampleAck => true
  | .checkAck => true
  | .sampleBit _ => true
  | .writeData _ _ => true
  | .readData _ _ => true
  | .initDone => true
  | _ => false

/-- While CONFIGURED = 0 both lines are NEUTRAL (R144), and nothing on its way touches a pin. -/
def ConfiguredInv (s : State) : Prop :=
  s.st.configured = false →
    s.st.initialized = false ∧ s.st.scl = .neutral ∧ s.st.sda = .neutral ∧
      s.work.tasks.all (fun t => !needsConfig t) = true

/-- The line that ends the command in progress: the first such line of the position. -/
def ending (ts : List Task) : Option Task := ts.find? endsCommand

/-- A `pin_pullup(l)` comes before the command's end. -/
def willPull (l : Line) : List Task → Bool
  | [] => false
  | t :: ts => if endsCommand t then false else decide (t = .pullup l) || willPull l ts

/-- INITIALIZED = 1 only with both latched pins valid (R204); an INIT in progress has tried, or will try, both. -/
def PinsInv (s : State) : Prop :=
  (s.st.initialized = true → PinsValid s) ∧
  (ending s.work.tasks = some .initDone →
    (s.pinOk .scl = true ∨ willPull .scl s.work.tasks = true) ∧
    (s.pinOk .sda = true ∨ willPull .sda s.work.tasks = true))

/-- The lines that can raise ClockTimeout or Nack, or lead to one that can. -/
def mayRaise : Task → Bool
  | .waitHigh => true
  | .poll => true
  | .checkAck => true
  | .writeData _ _ => true
  | .readData _ _ => true
  | _ => false

/-- The `on Err` clause in force is CLEANUP. -/
def isCleanup : Handler → Bool
  | .cleanup _ _ => true
  | _ => false

/-- Every line that can raise ClockTimeout or Nack runs under CLEANUP: STOP has none (R112), INIT and RELEASE have
none. -/
def guarded (h : Handler) : List Task → Bool
  | [] => true
  | .onErr h' :: ts => guarded h' ts
  | t :: ts => (!mayRaise t || isCleanup h) && guarded h ts

/-- The heads of the two byte loops. -/
def byteLoop : Task → Bool
  | .writeData _ _ => true
  | .readData _ _ => true
  | _ => false

/-- The line-state variable of l when the command ends, if no error is raised; after a byte loop it is taken as NEUTRAL,
so that only what follows the loop counts. -/
def finalLine (l : Line) (cur : LineState) : List Task → LineState
  | [] => cur
  | t :: ts =>
    if endsCommand t then cur
    else if t = .pullup l then finalLine l .released ts
    else if t = .low l then finalLine l .drivenLow ts
    else if t = .reset l then finalLine l .neutral ts
    else if byteLoop t then finalLine l .neutral ts
    else finalLine l cur ts

/-- Once INITIALIZED = 1, and until a RELEASE, every command leaves both lines RELEASED: the bus is idle when it ends
(R111). -/
def BusInv (s : State) : Prop :=
  PinsInv s ∧ guarded s.work.handler s.work.tasks = true ∧
  (ending s.work.tasks = some .initDone ∨
      (s.st.initialized = true ∧ ending s.work.tasks ≠ some .releaseDone) →
    finalLine .scl s.st.scl s.work.tasks = .released ∧ finalLine .sda s.st.sda s.work.tasks = .released)

/-- Reads of SCL come only while SCL is RELEASED and reads of SDA only while SDA is RELEASED, from line states c and d
on; after a byte loop the line states are taken as unknown (R106, R121). -/
def readsReleased (c d : LineState) : List Task → Bool
  | [] => true
  | .pullup .scl :: ts => readsReleased .released d ts
  | .pullup .sda :: ts => readsReleased c .released ts
  | .low .scl :: ts => readsReleased .drivenLow d ts
  | .low .sda :: ts => readsReleased c .drivenLow ts
  | .reset .scl :: ts => readsReleased .neutral d ts
  | .reset .sda :: ts => readsReleased c .neutral ts
  | .waitHigh :: ts => decide (c = .released) && readsReleased c d ts
  | .poll :: ts => decide (c = .released) && readsReleased c d ts
  | .sampleAck :: ts => decide (d = .released) && readsReleased c d ts
  | .sampleBit _ :: ts => decide (d = .released) && readsReleased c d ts
  | .writeData _ _ :: ts => readsReleased .neutral .neutral ts
  | .readData _ _ :: ts => readsReleased .neutral .neutral ts
  | _ :: ts => readsReleased c d ts

/-- WAIT_CLOCK_HIGH is only entered with SCL RELEASED, and the block never reads a line it drives (R106, R121). -/
def ReadsInv (s : State) : Prop := readsReleased s.st.scl s.st.sda s.work.tasks = true

/-- The `on Err` clauses of a transaction. -/
def inTransaction : Handler → Bool
  | .cleanup _ _ => true
  | .stopping _ => true
  | .cleaning _ _ _ => true
  | _ => false

/-- A clause does not report ERR_PHASE = STOP by itself. -/
def phaseNotStop : Handler → Bool
  | .cleanup ph _ => decide (ph ≠ .stop)
  | .cleaning _ ph _ => decide (ph ≠ .stop)
  | _ => true

/-- The same of a line: neither the clause it sets nor the phase it finishes with. -/
def taskNotStop : Task → Bool
  | .onErr h => phaseNotStop h
  | .finish _ ph _ => decide (ph ≠ .stop)
  | _ => true

/-- A line belongs to a transaction: it sets one of a transaction's clauses. -/
def startsTransaction : Task → Bool
  | .onErr h => inTransaction h
  | _ => false

/-- No STOP fails (R204): STOP_FAIL is 0, ERR_PHASE is not STOP, and nothing on its way makes it so. -/
def StopInv (s : State) : Prop :=
  PinsInv s ∧ guarded s.work.handler s.work.tasks = true ∧
  (inTransaction s.work.handler = true ∨ s.work.tasks.any startsTransaction = true → PinsValid s) ∧
  s.st.stopFail = false ∧ s.st.errPhase ≠ .stop ∧ phaseNotStop s.work.handler = true ∧
  s.work.tasks.all taskNotStop = true

/-! ### Other instances -/

/-- The pins a, b and the pins c, d have one in common. -/
abbrev commonPin (a b c d : PinId) : Prop := a = c ∨ a = d ∨ b = c ∨ b = d

/-- No two INITIALIZED instances have a pin in common (R3, R218): neither two of the others, of which each is listed once,
nor this one, while INITIALIZED, and another. -/
def PeersInv (s : State) : Prop :=
  s.peers.Pairwise (fun p q => p.id ≠ q.id ∧ ¬ commonPin p.scl p.sda q.scl q.sda) ∧
  (s.st.initialized = true → ∀ p ∈ s.peers, ¬ commonPin p.scl p.sda s.cur.sclPin s.cur.sdaPin)

/-! ### Buffers -/

/-- What a line will store fits the buffers it stores to. -/
def taskFits (p : Platform) (o : Opn) : Task → Bool
  | .readData _ n => decide (n ≤ p.bufLen)
  | .storeByte i => decide (i < p.bufLen)
  | .decodeRaw => decide (o.n.toNat ≤ p.wbufLen)
  | _ => true

/-- Every buffer, and the host's variables, keep the canonical form. -/
def MemoryWf (s : State) : Prop :=
  s.txbuf.wf ∧ s.rxbuf.wf ∧ s.wordbuf.wf ∧ s.host.vars.wf

/-- The sequencer and the host write inside the buffers only (R63), on a platform inside R9's bounds. -/
def BoundsInv (s : State) : Prop :=
  s.plat.wf = true ∧ s.work.tasks.all (taskFits s.plat s.work.opn) = true ∧
  (∀ e ∈ s.txbuf, e.1 < s.plat.bufLen) ∧ (∀ e ∈ s.rxbuf, e.1 < s.plat.bufLen) ∧
  (∀ e ∈ s.wordbuf, e.1 < s.plat.wbufLen)

/-! ### How long a command can run (R210) -/

/-- A bound on the steps an error raised under a clause adds: CLEANUP's STOP and finish. -/
def handlerCost : Handler → Nat
  | .cleanup _ _ => 10
  | _ => 0

/-- A bound on the steps of a line and of what it leads to, a line that can raise counting 2. 255 is the largest retry
budget of 8 bits; 4704 and 4698 bound a byte of the two loops. -/
def taskCost : Task → Nat
  | .pullup _ => 2
  | .low _ => 2
  | .waitHigh => 3 + 2 * 255
  | .poll => 2 + 2 * 255
  | .sampleAck => 2
  | .checkAck => 2
  | .sampleBit _ => 2
  | .onErr h => 1 + handlerCost h
  | .writeData j n => 1 + (n - j) * 4704
  | .readData i n => 1 + (n - i) * 4698
  | _ => 1

/-- The same of a list of lines. -/
def tasksCost (ts : List Task) : Nat := (ts.map taskCost).sum

/-- The same of a position, where WAIT_CLOCK_HIGH's loop has `left` retries left. -/
def positionCost (left : Byte) : List Task → Nat
  | .poll :: ts => 2 + 2 * left.toNat + tasksCost ts
  | .retry :: .poll :: ts => 3 + 2 * (left - 1).toNat + tasksCost ts
  | ts => tasksCost ts

/-- BUSY = 1 lasts at most this many more steps of the sequencer (R210). -/
def stepsBound (s : State) : Nat :=
  positionCost s.work.retryLeft s.work.tasks + handlerCost s.work.handler

/-! ### Traces (the worked examples of 40_bus_engine.md) -/

/-- The bits of a byte in wire order, most significant first (R64). -/
def bitsOf (b : Byte) : List Bool :=
  [b.getLsbD 7, b.getLsbD 6, b.getLsbD 5, b.getLsbD 4, b.getLsbD 3, b.getLsbD 2, b.getLsbD 1, b.getLsbD 0]

/-- WAIT_CLOCK_HIGH that reads 0 and sleeps P ms k times (R106). -/
def stretchTrace (p k : Nat) : List Action := (List.replicate k [Action.rd .scl false, Action.slp p]).flatten

/-- START with no stretching (R110). -/
def startTrace (h : Nat) : List Action :=
  [.pu .scl, .rd .scl true, .lo .sda, .slp h, .lo .scl, .slp h]

/-- STOP (R112). -/
def stopTrace (h : Nat) : List Action :=
  [.lo .sda, .slp h, .pu .scl, .slp h, .pu .sda, .slp h]

/-- One bit of WRITE_BYTE with no stretching (R114). -/
def writeBitTrace (h : Nat) (b : Bool) : List Action :=
  [.lo .scl, if b then .pu .sda else .lo .sda, .slp h, .pu .scl, .slp h, .rd .scl true]

/-- The ACK phase of WRITE_BYTE with no stretching (R116). -/
def ackTrace (h : Nat) (nack : Bool) : List Action :=
  [.lo .scl, .pu .sda, .slp h, .pu .scl, .rd .scl true, .rd .sda nack, .lo .scl]

/-- WRITE_BYTE with no stretching (R117). -/
def writeByteTrace (h : Nat) (nack : Bool) (b : Byte) : List Action :=
  (bitsOf b).flatMap (writeBitTrace h) ++ ackTrace h nack

/-- One bit of READ_BYTE with no stretching (R118). -/
def readBitTrace (h : Nat) (d : Bool) : List Action :=
  [.slp h, .pu .scl, .rd .scl true, .rd .sda d, .lo .scl]

/-- The ACK/NACK phase of READ_BYTE with no stretching (R119). -/
def acknackTrace (h : Nat) (ack : Bool) : List Action :=
  [if ack then .lo .sda else .pu .sda, .slp h, .pu .scl, .slp h, .rd .scl true, .lo .scl, .pu .sda]

/-- READ_BYTE with no stretching (R120). -/
def readByteTrace (h : Nat) (ack : Bool) (v : Byte) : List Action :=
  [.pu .sda] ++ (bitsOf v).flatMap (readBitTrace h) ++ acknackTrace h ack

/-- The bytes of a read transaction: every one ACKed but the last, which is NACKed (R154). -/
def readBytesTrace (h : Nat) : List Byte → List Action
  | [] => []
  | [v] => readByteTrace h false v
  | v :: w :: vs => readByteTrace h true v ++ readBytesTrace h (w :: vs)

/-- TX_WRITE with every byte ACKed and no stretching (R149). -/
def writeTrace (h : Nat) (a : Addr) (data : List Byte) : List Action :=
  startTrace h ++ writeByteTrace h false (addrByteWrite a) ++ data.flatMap (writeByteTrace h false) ++ stopTrace h

/-- TX_READ with the address ACKed and no stretching (R152). -/
def readTrace (h : Nat) (a : Addr) (data : List Byte) : List Action :=
  startTrace h ++ writeByteTrace h false (addrByteRead a) ++ readBytesTrace h data ++ stopTrace h

/-- The sum of the SLP arguments (R246). -/
def sleepTotal (tr : List Action) : Nat :=
  (tr.map fun | .slp n => n | _ => 0).sum

/-! ### Bus errors (R203, R205)

Where a transaction can go wrong, with no stretching but the one that times out: what it reports, the draws it takes, and
all it traces, the cleanup STOP included. A transaction that writes is a list of bytes, the address byte first. -/

/-- A bus error of a transaction. -/
structure BusError where
  err : ErrCode
  phase : Phase
  sclDraws : List Bool
  sdaDraws : List Bool
  trace : List Action
  deriving DecidableEq, Repr

/-- SCL that never reads 1 (R106), and the cleanup STOP (R205). -/
def timeoutTrace (c : Latched) : List Action :=
  stretchTrace c.period.toNat c.retries.toNat ++ [.rd .scl false] ++ stopTrace c.half.toNat

/-- The draws of SCL that never reads 1: CUR_RETRIES + 1 zeros (R106). -/
def timeoutDraws (c : Latched) : List Bool := List.replicate (c.retries.toNat + 1) false

/-- The phase of an error in the byte after the bytes `sent`: the address byte is the first (R203). -/
def bytePhase (sent : List Byte) : Phase := if sent = [] then .address else .data

/-- START, and the bytes `sent`, every one of them ACKed (R110, R117). -/
def sentTrace (h : Nat) (sent : List Byte) : List Action := startTrace h ++ sent.flatMap (writeByteTrace h false)

/-- ClockTimeout in START (R110). -/
def startTimesOut (c : Latched) : BusError :=
  { err := .clockTimeout, phase := .address, sclDraws := timeoutDraws c, sdaDraws := []
    trace := [.pu .scl] ++ timeoutTrace c }

/-- The byte b is NACKed after the bytes `sent` were ACKed (R116). -/
def byteNacked (c : Latched) (sent : List Byte) (b : Byte) : BusError :=
  { err := .nack, phase := bytePhase sent
    sclDraws := List.replicate (1 + 9 * (sent.length + 1)) true
    sdaDraws := List.replicate sent.length false ++ [true]
    trace := sentTrace c.half.toNat sent ++ writeByteTrace c.half.toNat true b ++ stopTrace c.half.toNat }

/-- WRITE_BYTE up to the polling of SCL that never reads 1: in data bit 7 - m, or in the ACK phase when m is 8 (R114,
R116, R117). -/
def cutWriteByteTrace (h : Nat) (b : Byte) (m : Nat) : List Action :=
  ((bitsOf b).take m).flatMap (writeBitTrace h) ++
    match (bitsOf b)[m]? with
    | some d => [.lo .scl, if d then .pu .sda else .lo .sda, .slp h, .pu .scl, .slp h]
    | none => [.lo .scl, .pu .sda, .slp h, .pu .scl]

/-- ClockTimeout in the byte b, after m of its bits and after the bytes `sent` were ACKed (R114, R116). -/
def byteTimesOut (c : Latched) (sent : List Byte) (b : Byte) (m : Nat) : BusError :=
  { err := .clockTimeout, phase := bytePhase sent
    sclDraws := List.replicate (1 + 9 * sent.length + m) true ++ timeoutDraws c
    sdaDraws := List.replicate sent.length false
    trace := sentTrace c.half.toNat sent ++ cutWriteByteTrace c.half.toNat b m ++ timeoutTrace c }

/-- READ_BYTE up to the polling of SCL that never reads 1: in data bit 7 - k when k bits were read, or, when all eight
were, in the ACK/NACK phase (R118, R119, R120). -/
def cutReadByteTrace (h : Nat) (ack : Bool) (bits : List Bool) : List Action :=
  [.pu .sda] ++ bits.flatMap (readBitTrace h) ++
    if bits.length < 8 then [.slp h, .pu .scl] else [if ack then .lo .sda else .pu .sda, .slp h, .pu .scl, .slp h]

/-- ClockTimeout in a data byte of a read, after `bits` of it were read and after the bytes `got`, every one of them ACKed
(R118, R119). -/
def readByteTimesOut (c : Latched) (a : Addr) (got : List Byte) (ack : Bool) (bits : List Bool) : BusError :=
  { err := .clockTimeout, phase := .data
    sclDraws := List.replicate (1 + 9 * (got.length + 1) + bits.length) true ++ timeoutDraws c
    sdaDraws := false :: got.flatMap bitsOf ++ bits
    trace := sentTrace c.half.toNat [addrByteRead a] ++ got.flatMap (readByteTrace c.half.toNat true) ++
      cutReadByteTrace c.half.toNat ack bits ++ timeoutTrace c }

/-- The bus errors of START and of writing `bytes`, the address byte first (R149). -/
inductive WriteFails (c : Latched) (bytes : List Byte) : BusError → Prop where
  | start : WriteFails c bytes (startTimesOut c)
  | nack {sent rest : List Byte} {b : Byte} : bytes = sent ++ b :: rest → WriteFails c bytes (byteNacked c sent b)
  | timeout {sent rest : List Byte} {b : Byte} {m : Nat} : bytes = sent ++ b :: rest → m ≤ 8 →
      WriteFails c bytes (byteTimesOut c sent b m)

/-- The bus errors of a read of n bytes, each with the bytes stored before it (R152). -/
inductive ReadFails (c : Latched) (a : Addr) (n : Nat) : List Byte → BusError → Prop where
  | address {x : BusError} : WriteFails c [addrByteRead a] x → ReadFails c a n [] x
  | data {got : List Byte} {bits : List Bool} : got.length < n → bits.length ≤ 8 →
      ReadFails c a n got (readByteTimesOut c a got (decide (got.length + 1 < n)) bits)

/-- The effect of an action on the line-state variable of l (R25). -/
def lineAfter (l : Line) (v : LineState) : Action → LineState
  | .pu l' => if l' = l then .released else v
  | .lo l' => if l' = l then .drivenLow else v
  | .rst l' => if l' = l then .neutral else v
  | .rd _ _ => v
  | .slp _ => v

/-- STATUS after a command that ended with an error and left both lines as given (R140, R158, R206). -/
def failedStatus (st : Status) (e : ErrCode) (ph : Phase) (dir : Dir) (scl sda : LineState) : Status :=
  { st with
    busy := false, errCode := e, errPhase := ph, errDir := dir, stopFail := false, stretchWait := false,
    fsm := .idle, scl := scl, sda := sda }

/-- STATUS after a command that completed without error and left both lines as given (R140, R158). -/
def doneStatus (st : Status) (scl sda : LineState) : Status :=
  { st with
    busy := false, errCode := .none, errPhase := .none, errDir := .write, stopFail := false, stretchWait := false,
    fsm := .idle, scl := scl, sda := sda }

end Sys2Proof.Safety
end

