-- ==== Sys2Proof/Certificates/Slice0/Obligations.lean ====
section
/-! DEFINITION. The statements for the provers. Each docstring names the rules of spec/ it formalises. -/

open Sys2Proof Sys2Proof.Machine Sys2Proof.Safety

/-! ### 30_encoding.md -/

/-- Every well-formed command's word decodes to the command, with every operand (R81, R82, R84, R88). -/
def Obligations.DecodeOfEncodeIsTheCommand : Prop :=
  ∀ i : Instr, i.wellFormed = true → decode (encode i) = .ok i

/-- A word that decodes to a command is that command's word: no bit of it is dropped (R81, R84). -/
def Obligations.EncodeOfDecodeIsTheWord : Prop :=
  ∀ (w : Word) (i : Instr), decode w = .ok i → encode i = w

/-- R84's rows, mask and match, and the command each stands for with the operands R82 takes from the word. -/
def opcodeRows (w : Word) : List (Word × Word × Instr) :=
  [(0xFFFFFFFF, 0x00000001, .configure), (0xFFFFFFFF, 0x00000002, .init), (0xFFFFFFFF, 0x00000003, .release),
   (0x000080FF, 0x00000004, .write (w.extractLsb' 8 7) (w.extractLsb' 16 16)),
   (0x000080FF, 0x00000005, .read (w.extractLsb' 8 7) (w.extractLsb' 16 16)),
   (0x0000FFFF, 0x00000006, .crc8 (w.extractLsb' 16 16)), (0x0000FFFF, 0x00000007, .encode (w.extractLsb' 16 16)),
   (0x0000FFFF, 0x00000008, .decode (w.extractLsb' 16 16)),
   (0x000080FF, 0x00000009, .dcr (w.extractLsb' 8 7) (w.extractLsb' 16 16))]

/-- R84: a word is a command exactly when it matches a row, it is then the command of that row with the operands of
R82, and no word matches two rows. -/
def Obligations.WordIsACommandExactlyWhenOneRowMatches : Prop :=
  ∀ w : Word,
    (∀ i, decode w = .ok i ↔ ∃ mask pattern, (mask, pattern, i) ∈ opcodeRows w ∧ w &&& mask = pattern) ∧
    (∀ r ∈ opcodeRows w, ∀ q ∈ opcodeRows w, w &&& r.1 = r.2.1 → w &&& q.1 = q.2.1 → r = q)

/-- R85's list of the reserved encodings. -/
def reservedEncoding (w : Word) : Prop :=
  opcOf w = 0 ∨ 0x0A ≤ (opcOf w).toNat ∨ rsvOf w = true ∨
  ((opcOf w = 1 ∨ opcOf w = 2 ∨ opcOf w = 3 ∨ opcOf w = 6 ∨ opcOf w = 7 ∨ opcOf w = 8) ∧ addrOf w ≠ 0) ∨
  ((opcOf w = 1 ∨ opcOf w = 2 ∨ opcOf w = 3) ∧ countOf w ≠ 0)

/-- R85: the words that are no command are exactly the listed ones, and writing one to CMD while BUSY = 0 completes at
once with COMMAND_ERROR, with no pin action and no buffer changed. -/
def Obligations.ReservedEncodingsCompleteWithCommandError : Prop :=
  ∀ w : Word,
    ((∀ i, decode w ≠ .ok i) ↔ reservedEncoding w) ∧
    (reservedEncoding w → ∀ s : State, s.st.busy = false →
      ∃ t, regWrite 0 w s = .next t ∧
        t.st.errCode = .commandError ∧ t.st.errPhase = .none ∧ t.st.errDir = .write ∧ t.st.stopFail = false ∧
        t.st.busy = false ∧ t.trace = s.trace ∧ t.st.scl = s.st.scl ∧ t.st.sda = s.st.sda ∧
        t.txbuf = s.txbuf ∧ t.rxbuf = s.rxbuf ∧ t.wordbuf = s.wordbuf)

/-- R90's worked encodings. -/
def Obligations.WorkedEncodingsDecode : Prop :=
  decode 0x00000001 = .ok .configure ∧
  decode 0x00014004 = .ok (.write 0x40 1) ∧
  decode 0x00015805 = .ok (.read 0x58 1) ∧
  decode 0x00005805 = .ok (.read 0x58 0) ∧
  decode 0x00020006 = .ok (.crc8 2) ∧
  decode 0x00010007 = .ok (.encode 1) ∧
  decode 0x00010008 = .ok (.decode 1) ∧
  decode 0x00035809 = .ok (.dcr 0x58 3) ∧
  decode 0x00008004 = .error .reservedBit ∧
  decode 0x00014006 = .error .addrNotZero ∧
  decode 0x0000000A = .error .reservedOpcode

/-- R82: a write's address byte is the address shifted left by one and a read's has bit 0 set besides; no bit of the
address is lost. -/
def Obligations.AddressByteIsAddressAndDirection : Prop :=
  ∀ a : Addr,
    (addrByteWrite a).toNat = 2 * a.toNat ∧ (addrByteRead a).toNat = 2 * a.toNat + 1

/-- R88: the assembler turns a command with its operands in range into the write of its word to CMD, and refuses an
address above 0x7F or a count above 0xFFFF. -/
def Obligations.AssemblerEmitsTheCommandWord : Prop :=
  ∀ a n : Nat,
    (a ≤ 0x7F → n ≤ 0xFFFF →
      assemble [.WRITE a n] = some [.wr 0 (BitVec.ofNat 32 (n * 65536 + a * 256 + 4))] ∧
      assemble [.READ a n] = some [.wr 0 (BitVec.ofNat 32 (n * 65536 + a * 256 + 5))] ∧
      assemble [.DCR a n] = some [.wr 0 (BitVec.ofNat 32 (n * 65536 + a * 256 + 9))]) ∧
    (n ≤ 0xFFFF →
      assemble [.CRC8 n] = some [.wr 0 (BitVec.ofNat 32 (n * 65536 + 6))] ∧
      assemble [.ENCODE n] = some [.wr 0 (BitVec.ofNat 32 (n * 65536 + 7))] ∧
      assemble [.DECODE n] = some [.wr 0 (BitVec.ofNat 32 (n * 65536 + 8))]) ∧
    (0x7F < a ∨ 0xFFFF < n → assemble [.WRITE a n] = none ∧ assemble [.READ a n] = none ∧ assemble [.DCR a n] = none) ∧
    (0xFFFF < n → assemble [.CRC8 n] = none ∧ assemble [.ENCODE n] = none ∧ assemble [.DECODE n] = none)

/-! ### The step -/

/-- A step at a state with BUSY = 0 whose host is about to write a command's word to CMD is the command's meaning, on the
state with the host moved past that statement (R140; log 1). -/
def Obligations.StepRunsTheDecodedCommand : Prop :=
  ∀ (s : State) (w : Word) (i : Instr),
    s.st.busy = false → s.hostOp? = some (.wr 0 w) → decode w = .ok i → step s = exec i s.nextStmt

/-- What a step is otherwise: while BUSY = 0 and the host has nothing to do, nothing changes (R220, R234); while
BUSY = 1 the sequencer runs its next line unless the host has a statement and the turn (R72; log 4). -/
def Obligations.StepWaitsOrTakesTurns : Prop :=
  ∀ s : State,
    (s.st.busy = false → HostDone s → step s = .next s) ∧
    (s.st.busy = true → HostDone s → step s = seqStep s) ∧
    (∀ o as, s.st.busy = true → s.hostOp? = some o → s.env.turns = .sequencer :: as →
      step s = seqStep { s with env := { s.env with turns := as } }) ∧
    (∀ o as, s.st.busy = true → s.hostOp? = some o → s.env.turns = .host :: as →
      step s = runHostOp o { s with env := { s.env with turns := as } }) ∧
    (∀ o, s.st.busy = false → s.hostOp? = some o → step s = runHostOp o s)

/-! ### 70_reset_and_hazards.md, 10_state.md, 20_memory.md -/

/-- R230's values. -/
def resetValues (s : State) : Prop :=
  s.statusWord = 0 ∧
  s.st = { busy := false, configured := false, initialized := false, stopFail := false, errCode := .none,
           errPhase := .none, errDir := .write, stretchWait := false, fsm := .idle, scl := .neutral, sda := .neutral } ∧
  s.reg = { cfgSclPin := 0, cfgSdaPin := 0, cfgPeriod := 0, halfPeriod := 0, stretchRetries := 0, crcInit := 0xFF,
            argCmd := 0, argDelay := 0, result := 0, rxCount := 0 } ∧
  s.cur = { sclPin := 0, sdaPin := 0, period := 0, half := 0, retries := 0 } ∧
  s.work.shift = 0 ∧ s.work.biti = 0 ∧ s.work.retryLeft = 0 ∧ s.work.byteIdx = 0 ∧
  s.work.opn = { addr := 0, n := 0, cmd16 := 0, delay := 0, init := 0 } ∧ s.work.tasks = [] ∧
  (∀ i, s.txbuf.written i = false ∧ s.rxbuf.written i = false ∧ s.wordbuf.written i = false) ∧
  s.trace = []

/-- R230: the reset state has the stated values, and asserting the reset input gives them from every state in one step,
a running command among them (R233). -/
def Obligations.ResetPutsEveryPieceAtItsValue : Prop :=
  resetValues State.reset ∧ ∀ s : State, ∃ t, runHostOp .reset s = .next t ∧ resetValues t ∧ t.plat = s.plat

/-- R28: a write to a read-write register stores only its field's bits, every other register ignores a write, and CMD and
the registers from 12 on read 0; no such write touches anything but the register written. Each number from 2 to 11 reads
the register R27 gives it, zero-extended (number 1, STATUS, has its own statement, StatusWordHoldsItsFields). -/
def Obligations.RegisterWritesStoreOnlyTheirField : Prop :=
  ∀ (s : State) (n : Nat) (v : Word),
    (n = 0 ∨ 12 ≤ n → s.regRead n = 0) ∧
    [2, 3, 4, 5, 6, 7, 8, 9, 10, 11].map (fun k => (s.regRead k).toNat) =
      [s.reg.cfgSclPin.toNat, s.reg.cfgSdaPin.toNat, s.reg.cfgPeriod.toNat, s.reg.halfPeriod.toNat,
       s.reg.stretchRetries.toNat, s.reg.crcInit.toNat, s.reg.argCmd.toNat, s.reg.argDelay.toNat, s.reg.result.toNat,
       s.reg.rxCount.toNat] ∧
    (n ≠ 0 → ∃ t, regWrite n v s = .next t ∧ t = { s with reg := t.reg } ∧
      (∀ m, t.regRead m =
        if m = n ∧ (n = 2 ∨ n = 3 ∨ n = 4 ∨ n = 8 ∨ n = 9) then v &&& 0xFFFF
        else if m = n ∧ n = 7 then v &&& 0xFF
        else s.regRead m))

/-- R200: ERR_CODE's values. -/
def errCodes : List (ErrCode × BitVec 4) :=
  [(.none, 0), (.invalidPin, 1), (.clockTimeout, 2), (.nack, 3), (.checksumMismatch, 4), (.configurationError, 5),
   (.commandError, 6)]

/-- R203: ERR_PHASE's values. -/
def errPhases : List (Phase × BitVec 2) := [(.none, 0), (.address, 1), (.data, 2), (.stop, 3)]

/-- R203: ERR_DIR's values. -/
def errDirs : List (Dir × BitVec 1) := [(.write, 0), (.read, 1)]

/-- R32: FSM_STATE's values. -/
def fsmStates : List (FsmState × BitVec 4) :=
  [(.idle, 0), (.started, 1), (.writingBit, 2), (.ackPhase, 3), (.readingBit, 4), (.acknackPhase, 5), (.stopped, 6),
   (.delay, 7), (.pinSetup, 8)]

/-- R22: the values of SCL_STATE and SDA_STATE. -/
def lineStates : List (LineState × BitVec 2) := [(.neutral, 0), (.released, 1), (.drivenLow, 2)]

/-- R31: the places of STATUS's fields in the word the host reads, the reserved bits being 0, and the value R22, R32, R200
and R203 give each name in its field. That BIT_INDEX is BITI in WRITING_BIT and READING_BIT, and 0 elsewhere, the cleanup
STOP included, is the model's reading of R31 (log 8). -/
def Obligations.StatusWordHoldsItsFields : Prop :=
  ∀ s : State,
    let w := s.regRead 1
    w.getLsbD 0 = s.st.busy ∧ w.getLsbD 1 = s.st.configured ∧ w.getLsbD 2 = s.st.initialized ∧
    w.getLsbD 3 = s.st.stopFail ∧ w.getLsbD 11 = s.st.stretchWait ∧
    (s.st.errCode, w.extractLsb' 4 4) ∈ errCodes ∧ (s.st.errPhase, w.extractLsb' 8 2) ∈ errPhases ∧
    (s.st.errDir, w.extractLsb' 10 1) ∈ errDirs ∧ (s.st.fsm, w.extractLsb' 12 4) ∈ fsmStates ∧
    (s.st.scl, w.extractLsb' 16 2) ∈ lineStates ∧ (s.st.sda, w.extractLsb' 18 2) ∈ lineStates ∧
    w.extractLsb' 20 3 =
      (if s.st.fsm = .writingBit ∨ s.st.fsm = .readingBit then s.work.biti else 0) ∧
    w.extractLsb' 23 9 = 0

/-- What the host's buffer accesses do while BUSY = 0 (R61, R63): an element in range stores the low bits of what is
written and reads them back zero-extended, no other element of any buffer changes, and an access out of range reads 0
and stores nothing. -/
def Obligations.HostBufferAccessesStoreAndReadElements : Prop :=
  ∀ (s : State) (b : Buf) (i t : Nat) (v : Word), s.st.busy = false →
    (i < s.bufSize b → ∃ u, bufWrite b i v s = .next u ∧
      bufRead b i t u = .next (u.setVar t (if b = .wb then v &&& 0xFFFF else v &&& 0xFF)) ∧
      (∀ c j, ¬ (c = b ∧ j = i) → u.element c j = s.element c j) ∧
      u = { s with txbuf := u.txbuf, rxbuf := u.rxbuf, wordbuf := u.wordbuf }) ∧
    (s.bufSize b ≤ i → bufWrite b i v s = .next s ∧ bufRead b i t s = .next (s.setVar t 0))

/-- R66: a read of an element nothing has written is the fault UnwrittenBuffer, by the host and by each command that reads
a buffer, which names the first such element. Only a host read of RXBUF or WORDBUF while BUSY = 1 is no such fault: it
gives a free value (R76; that this comes before R66 is the model's reading, log 7). -/
def Obligations.UnwrittenElementsFault : Prop :=
  (∀ (s : State) (b : Buf) (i t : Nat), ¬ (s.st.busy = true ∧ (b = .rx ∨ b = .wb)) → i < s.bufSize b →
    s.element b i = none → bufRead b i t s = .fault (.unwrittenBuffer b i)) ∧
  (∀ (s : State) (n : Half) (i : Nat), s.st.busy = false → n.toNat ≤ s.plat.bufLen → i < n.toNat →
    s.txbuf.get? i = none → (∀ j < i, (s.txbuf.get? j).isSome) →
    exec (.crc8 n) s = .fault (.unwrittenBuffer .tx i)) ∧
  (∀ (s : State) (n : Half) (i : Nat), s.st.busy = false → n.toNat ≤ s.plat.wbufLen →
    2 + 3 * n.toNat ≤ s.plat.bufLen → i < n.toNat →
    s.wordbuf.get? i = none → (∀ j < i, (s.wordbuf.get? j).isSome) →
    exec (.encode n) s = .fault (.unwrittenBuffer .wb i)) ∧
  (∀ (s : State) (n : Half) (i : Nat), s.st.busy = false → n.toNat ≤ s.plat.wbufLen →
    3 * n.toNat ≤ s.plat.bufLen → i < 3 * n.toNat →
    s.rxbuf.get? i = none → (∀ j < i, (s.rxbuf.get? j).isSome) →
    exec (.decode n) s = .fault (.unwrittenBuffer .rx i)) ∧
  (∀ (s : State) (j n : Nat) (ts : List Task), s.work.tasks = .writeData j n :: ts → j < n →
    s.txbuf.get? j = none → seqStep s = .fault (.unwrittenBuffer .tx j))

/-- R75 and R214: while BUSY = 1 a host write to any buffer, and any host write to CMD, is a fault. That a buffer write
faults at an index out of range too is the model's reading of R63 and R75 together (log 7, DEDUCED), and that a word that
is no command faults like one that is, the model's reading of R214 (log 17, DEDUCED). -/
def Obligations.WritesWhileBusyFault : Prop :=
  ∀ s : State, s.st.busy = true →
    (∀ b i v, bufWrite b i v s = .fault .bufferWriteWhileBusy) ∧
    (∀ w, regWrite 0 w s = .fault .commandWhileBusy)

/-- R76: while BUSY = 1 a host read of RXBUF or WORDBUF answers some value and changes nothing else, a host read of TXBUF
answers the stored element, or 0 out of range (R63), and a register read answers the register's current value. That the
value of a busy read is a free value, whatever the index, and that TXBUF keeps the rules of an idle block out of range, is
the model's reading (log 7). -/
def Obligations.ReadsWhileBusyAreDefinedOrFree : Prop :=
  ∀ (s : State) (t : Nat), s.st.busy = true →
    (∀ b i, b = .rx ∨ b = .wb → ∃ v, bufRead b i t s = .next { s.setVar t v with fresh := s.fresh + 1 }) ∧
    (∀ i e, i < s.plat.bufLen → s.txbuf.get? i = some e → bufRead .tx i t s = .next (s.setVar t (e.setWidth 32))) ∧
    (∀ i, s.plat.bufLen ≤ i → bufRead .tx i t s = .next (s.setVar t 0)) ∧
    (∀ n, runHostOp (.rd n t) s = .next (s.nextStmt.setVar t (s.regRead n)))

/-! ### 40_bus_engine.md -/

/-- R25: the only actions that change a line-state variable are pin_pullup (to RELEASED), pin_low (to DRIVEN_LOW) and
pin_reset (to NEUTRAL), and each is in TRACE: a sequencer step traces nothing and leaves both variables, or traces one
action and leaves each variable as that action does. That a step is one line of the pseudocode is the model's (log 5). -/
def Obligations.OnlyTracedPinActionsChangeTheLines : Prop :=
  ∀ s t : State, seqStep s = .next t →
    (t.trace = s.trace ∧ ∀ l, t.lineOf l = s.lineOf l) ∨
    (∃ a, t.trace = s.trace ++ [a] ∧ ∀ l, t.lineOf l = lineAfter l (s.lineOf l) a)

/-- The draws scripted for a line. -/
def drawsOf (s : State) : Line → List Bool
  | .scl => s.env.sclDraws
  | .sda => s.env.sdaDraws

/-- The lines of the pseudocode that read a line: the poll of SCL, and the samples of SDA (R106, R116, R118). -/
def readsLine (k : Task) (l : Line) : Prop :=
  (k = .poll ∧ l = .scl) ∨ ((k = .sampleAck ∨ ∃ i, k = .sampleBit i) ∧ l = .sda)

/-- R100 to R105, and R26, at a line of the pseudocode: what each pin action traces and does to the lines when the Pin
Driver accepts the pin, that an action on a pin it refuses traces nothing, changes no line and raises InvalidPin (at the
poll with STRETCH_WAIT set to 0 before, R106), and that pin_reset and sleep do not look at the pin. That a step is one line
of the pseudocode is the model's (log 5), and that draws come from a script in the state (log 3). -/
def Obligations.PinActionsDoWhatTheRulesSay : Prop :=
  ∀ (s : State) (l : Line) (ts : List Task),
    (s.work.tasks = .pullup l :: ts → s.pinOk l = true →
      seqStep s = .next (((s.setTasks ts).setLine l .released).act (.pu l))) ∧
    (s.work.tasks = .low l :: ts → s.pinOk l = true →
      seqStep s = .next (((s.setTasks ts).setLine l .drivenLow).act (.lo l))) ∧
    (s.work.tasks = .pullup l :: ts ∨ s.work.tasks = .low l :: ts → s.pinOk l = false →
      seqStep s = .next ((s.setTasks ts).raise .invalidPin)) ∧
    (∀ k, readsLine k l → s.work.tasks = k :: ts → s.pinOk l = false →
      seqStep s = .next ((if k = .poll then (s.setTasks ts).setStretch false else s.setTasks ts).raise .invalidPin)) ∧
    (∀ k, readsLine k l → s.work.tasks = k :: ts → s.pinOk l = true →
      ∃ a t, seqStep s = .next t ∧ t.trace = s.trace ++ [.rd l a] ∧ (∀ l', t.lineOf l' = s.lineOf l') ∧
        (s.lineOf l = .drivenLow → a = false ∧ t.env = s.env) ∧
        (s.lineOf l ≠ .drivenLow → ∀ d ds, drawsOf s l = d :: ds →
          a = d ∧ drawsOf t l = ds ∧ ∀ l', l' ≠ l → drawsOf t l' = drawsOf s l')) ∧
    (s.work.tasks = .reset l :: ts → seqStep s = .next (((s.setTasks ts).setLine l .neutral).act (.rst l))) ∧
    (s.work.tasks = .sleepHalf :: ts → seqStep s = .next ((s.setTasks ts).act (.slp s.cur.half.toNat))) ∧
    (s.work.tasks = .sleepDelay :: ts → seqStep s = .next ((s.setTasks ts).act (.slp s.work.opn.delay.toNat)))

/-- R26, R103 at the ACK sample: the level of a line the block drives low is 0, the level of any other line is the ENV's
next draw, and the level read is traced. That draws come from a script in the state is the model's (log 3). -/
def Obligations.ReadOfALineIsItsLevel : Prop :=
  ∀ (s : State) (ts : List Task), s.work.tasks = .sampleAck :: ts → s.pinOk .sda = true →
    ∃ a t, seqStep s = .next t ∧ t.trace = s.trace ++ [.rd .sda a] ∧ t.work.ackBit = a ∧ t.work.tasks = ts ∧
      t.st = s.st ∧
      (s.st.sda = .drivenLow → a = false ∧ t.env = s.env) ∧
      (s.st.sda ≠ .drivenLow → ∀ d ds, s.env.sdaDraws = d :: ds → a = d ∧ t.env = { s.env with sdaDraws := ds })

/-- R106: WAIT_CLOCK_HIGH, entered with SCL released, that reads 0 at most CUR_RETRIES times and then 1 returns with
STRETCH_WAIT = 0, one sleep of P ms after each 0. -/
def Obligations.WaitClockHighEndsWhenSclReadsHigh : Prop :=
  ∀ (s : State) (ts : List Task) (k : Nat) (ds : List Bool),
    s.st.busy = true → HostDone s → s.work.tasks = .waitHigh :: ts → s.st.scl = .released → s.pinOk .scl = true →
    k ≤ s.cur.retries.toNat → s.env.sclDraws = List.replicate k false ++ true :: ds →
    Reaches s { s with
      st := { s.st with stretchWait := false }
      work := { s.work with tasks := ts, retryLeft := s.cur.retries - BitVec.ofNat 8 k }
      env := { s.env with sclDraws := ds }
      trace := s.trace ++ stretchTrace s.cur.period.toNat k ++ [.rd .scl true] }

/-- R106: ClockTimeout is raised once CUR_RETRIES + 1 reads have all returned 0, after CUR_RETRIES sleeps of P ms. -/
def Obligations.WaitClockHighTimesOut : Prop :=
  ∀ (s : State) (ts : List Task) (ds : List Bool),
    s.st.busy = true → HostDone s → s.work.tasks = .waitHigh :: ts → s.st.scl = .released → s.pinOk .scl = true →
    s.env.sclDraws = List.replicate (s.cur.retries.toNat + 1) false ++ ds →
    Reaches s (State.raise { s with
      st := { s.st with stretchWait := false }
      work := { s.work with tasks := ts, retryLeft := 0 }
      env := { s.env with sclDraws := ds }
      trace := s.trace ++ stretchTrace s.cur.period.toNat s.cur.retries.toNat ++ [.rd .scl false] } .clockTimeout)

/-- R110, R112: START with no stretching gives its trace and ends with both lines DRIVEN_LOW; STOP, from any line states,
gives its trace, reads no line and ends with both lines RELEASED. -/
def Obligations.StartAndStopEndWithTheirLines : Prop :=
  ∀ (s : State) (ts : List Task), s.st.busy = true → HostDone s → PinsValid s →
    (∀ ds, s.work.tasks = start ++ ts → s.env.sclDraws = true :: ds →
      Reaches s { s with
        st := { s.st with fsm := .started, stretchWait := false, scl := .drivenLow, sda := .drivenLow }
        work := { s.work with tasks := ts, retryLeft := s.cur.retries }
        env := { s.env with sclDraws := ds }
        trace := s.trace ++ startTrace s.cur.half.toNat }) ∧
    (s.work.tasks = stop ++ ts →
      Reaches s { s with
        st := { s.st with fsm := .stopped, scl := .released, sda := .released }
        work := { s.work with tasks := ts }
        trace := s.trace ++ stopTrace s.cur.half.toNat })

/-- R114 to R117: WRITE_BYTE with no stretching sends the byte most significant bit first in 55 actions, samples the ACK
bit, ends with SCL DRIVEN_LOW and SDA RELEASED, and raises Nack exactly when the bit read is 1. -/
def Obligations.WriteByteSendsBitsAndSamplesAck : Prop :=
  ∀ (s : State) (b : Byte) (nack : Bool) (ts : List Task) (scl sda : List Bool),
    s.st.busy = true → HostDone s → PinsValid s → s.work.tasks = writeByte b ++ ts →
    s.env.sclDraws = List.replicate 9 true ++ scl → s.env.sdaDraws = nack :: sda →
    (writeByteTrace s.cur.half.toNat nack b).length = 55 ∧
    let u : State := { s with
      st := { s.st with fsm := .ackPhase, stretchWait := false, scl := .drivenLow, sda := .released }
      work := { s.work with tasks := ts, retryLeft := s.cur.retries, biti := 0, ackBit := nack }
      env := { s.env with sclDraws := scl, sdaDraws := sda }
      trace := s.trace ++ writeByteTrace s.cur.half.toNat nack b }
    Reaches s (if nack then u.raise .nack else u)

/-- R118 to R120: READ_BYTE with no stretching assembles the bits it samples, the first into bit 7, in 48 actions, sends
the ACK or NACK asked for, and ends with SCL DRIVEN_LOW and SDA RELEASED. -/
def Obligations.ReadByteAssemblesBitsAndSendsAck : Prop :=
  ∀ (s : State) (v : Byte) (ack : Bool) (ts : List Task) (scl sda : List Bool),
    s.st.busy = true → HostDone s → PinsValid s → s.work.tasks = readByte ack ++ ts →
    s.env.sclDraws = List.replicate 9 true ++ scl → s.env.sdaDraws = bitsOf v ++ sda →
    (readByteTrace s.cur.half.toNat ack v).length = 48 ∧
    Reaches s { s with
      st := { s.st with fsm := .acknackPhase, stretchWait := false, scl := .drivenLow, sda := .released }
      work := { s.work with tasks := ts, retryLeft := s.cur.retries, biti := 0, shift := v }
      env := { s.env with sclDraws := scl, sdaDraws := sda }
      trace := s.trace ++ readByteTrace s.cur.half.toNat ack v }

/-! ### 41_transactions.md -/

/-- The legality table of R142. -/
def refusedByTable (s : State) : Instr → Prop
  | .configure => s.st.initialized = true ∨ s.st.scl ≠ .neutral ∨ s.st.sda ≠ .neutral
  | .init => s.st.configured = false
  | .release => False
  | .write _ n => s.st.initialized = false ∨ n.toNat > s.plat.bufLen
  | .read _ n => s.st.initialized = false ∨ n.toNat > s.plat.bufLen
  | .crc8 n => n.toNat > s.plat.bufLen
  | .encode n => n.toNat > s.plat.wbufLen ∨ 2 + 3 * n.toNat > s.plat.bufLen
  | .decode n => n.toNat > s.plat.wbufLen ∨ 3 * n.toNat > s.plat.bufLen
  | .dcr _ n => s.st.initialized = false ∨ n.toNat > s.plat.wbufLen ∨ 3 * n.toNat > s.plat.bufLen

/-- R142: a command for which a condition of its row holds is refused with COMMAND_ERROR, and writes only STATUS; a
command for which none holds is not answered with COMMAND_ERROR. -/
def Obligations.LegalityTableDecidesRefusal : Prop :=
  ∀ (i : Instr) (s : State), PositionInv s → s.st.busy = false →
    (refusedByTable s i → exec i s = .next { s with
      st := { s.st with errCode := .commandError, errPhase := .none, errDir := .write, stopFail := false } }) ∧
    (¬ refusedByTable s i → ∀ t, exec i s = .next t → t.st.errCode ≠ .commandError)

/-- The address and the count of a command's word, 0 where its row has none (R81). -/
def wordOperands : Instr → Addr × Half
  | .configure => (0, 0)
  | .init => (0, 0)
  | .release => (0, 0)
  | .write a n => (a, n)
  | .read a n => (a, n)
  | .crc8 n => (0, n)
  | .encode n => (0, n)
  | .decode n => (0, n)
  | .dcr a n => (a, n)

/-- R140, R141 for the commands that run beyond their acceptance: acceptance clears the error fields, sets BUSY and
samples the operands, with no pin action. That a RELEASE with CONFIGURED = 0, which has no pin action to perform, is such
a command and has BUSY = 1 after its acceptance is the model's reading (log 19, DEDUCED, unsafe for this very claim). -/
def Obligations.AcceptanceSamplesTheOperands : Prop :=
  ∀ (i : Instr) (s : State), s.st.busy = false → ¬ refusedByTable s i →
    (i = .init ∨ i = .release ∨ (∃ a n, i = .write a n) ∨ (∃ a n, i = .read a n) ∨ ∃ a n, i = .dcr a n) →
    ∃ t, exec i s = .next t ∧
      t.st = { s.st with busy := true, errCode := .none, errPhase := .none, errDir := .write, stopFail := false } ∧
      t.work.opn = { addr := (wordOperands i).1, n := (wordOperands i).2, cmd16 := s.reg.argCmd,
                     delay := s.reg.argDelay, init := s.reg.crcInit } ∧
      (∃ ts e, t.work.tasks = ts ++ [e] ∧ endsCommand e = true) ∧ t.trace = s.trace

/-- The working state of a machine with no command (R21), with the operands of the last one. -/
def idleWork (w : Work) (s : State) (a : Addr) (n : Half) : Work :=
  { w with
    biti := 0, tasks := [], handler := .none
    opn := { addr := a, n := n, cmd16 := s.reg.argCmd, delay := s.reg.argDelay, init := s.reg.crcInit } }

/-- R143: CONFIGURE with a period of at least 2 and two different pins latches the pins and the period, sets the half
period floor(p/2) and the retry budget floor(150/p), and completes in one step. -/
def Obligations.ConfigureLatchesTheConfiguration : Prop :=
  ∀ s : State, s.st.busy = false → s.st.initialized = false → s.st.scl = .neutral → s.st.sda = .neutral →
    2 ≤ s.reg.cfgPeriod.toNat → s.reg.cfgSclPin ≠ s.reg.cfgSdaPin →
    let half := BitVec.ofNat 16 (s.reg.cfgPeriod.toNat / 2)
    let retries := BitVec.ofNat 8 (150 / s.reg.cfgPeriod.toNat)
    exec .configure s = .next { s with
      st := { doneStatus s.st .neutral .neutral with configured := true }
      reg := { s.reg with halfPeriod := half, stretchRetries := retries }
      cur := { sclPin := s.reg.cfgSclPin, sdaPin := s.reg.cfgSdaPin, period := s.reg.cfgPeriod, half := half,
               retries := retries }
      work := idleWork s.work s 0 0 }

/-- R143, R30: CONFIGURE with period 0 or 1, or with one pin for both lines, ends with CONFIGURATION_ERROR and
CONFIGURED = 0, and leaves every latched value as it was. -/
def Obligations.ConfigureRejectsADegenerateConfiguration : Prop :=
  ∀ s : State, s.st.busy = false → s.st.initialized = false → s.st.scl = .neutral → s.st.sda = .neutral →
    (s.reg.cfgPeriod.toNat < 2 ∨ s.reg.cfgSclPin = s.reg.cfgSdaPin) →
    exec .configure s = .next { s with
      st := { failedStatus s.st .configurationError .none .write .neutral .neutral with configured := false }
      work := idleWork s.work s 0 0 }

/-- R145: INIT of a configured block whose pins the Pin Driver accepts, and no other instance holds, releases SCL, then
SDA, and ends with INITIALIZED = 1. -/
def Obligations.InitReleasesBothLines : Prop :=
  ∀ s : State, s.st.busy = false → HostDone s → s.st.configured = true → PinsValid s →
    (∀ p ∈ s.peers, ¬ commonPin p.scl p.sda s.cur.sclPin s.cur.sdaPin) →
    ∃ t, exec .init s = .next t ∧ Reaches t { s with
      st := { doneStatus s.st .released .released with initialized := true }
      work := idleWork s.work s 0 0
      trace := s.trace ++ [.pu .scl, .pu .sda] }

/-- R145: INIT on a pin the Pin Driver refuses ends with INVALID_PIN, no cleanup STOP and INITIALIZED as it was; SCL is
tried first, and stays RELEASED when only SDA is refused. -/
def Obligations.InitReportsAnInvalidPin : Prop :=
  ∀ s : State, s.st.busy = false → HostDone s → s.st.configured = true →
    (s.pinOk .scl = false →
      ∃ t, exec .init s = .next t ∧ Reaches t { s with
        st := failedStatus s.st .invalidPin .none .write s.st.scl s.st.sda
        work := idleWork s.work s 0 0 }) ∧
    (s.pinOk .scl = true → s.pinOk .sda = false →
      ∃ t, exec .init s = .next t ∧ Reaches t { s with
        st := failedStatus s.st .invalidPin .none .write .released s.st.sda
        work := idleWork s.work s 0 0
        trace := s.trace ++ [.pu .scl] })

/-- R218: of two instances with a common pin the second INIT is the fault SharedPins, be it this one's, another's on a
pin this one holds while INITIALIZED, or another's on a pin a third one holds; an INIT of another instance with no pin in
common makes it hold its pins, a repeated one changes nothing (R145), its release frees them, and no step makes two
INITIALIZED instances share a pin. How the model learns of the other instances is its own (logs 12 and 13). -/
def Obligations.InitializedInstancesNeverShareAPin : Prop :=
  (∀ s : State, s.st.busy = false → HostDone s → s.st.configured = true → PinsValid s →
    (∃ p ∈ s.peers, commonPin p.scl p.sda s.cur.sclPin s.cur.sdaPin) →
    ∃ t, exec .init s = .next t ∧ ReachesFault t .sharedPins) ∧
  (∀ (s : State) (k : Nat) (scl sda : PinId), (∀ p ∈ s.peers, p.id ≠ k) →
    runHostOp (.peerInit k scl sda) s =
      if s.st.initialized = true ∧ commonPin scl sda s.cur.sclPin s.cur.sdaPin ∨
          ∃ p ∈ s.peers, commonPin scl sda p.scl p.sda then .fault .sharedPins
      else .next { s.nextStmt with peers := { id := k, scl := scl, sda := sda } :: s.peers }) ∧
  (∀ (s : State) (p : Peer) (scl sda : PinId), PeersInv s → p ∈ s.peers →
    runHostOp (.peerInit p.id scl sda) s = .next s.nextStmt) ∧
  (∀ (s : State) (k : Nat), ∃ t, runHostOp (.peerRelease k) s = .next t ∧ t = { s.nextStmt with peers := t.peers } ∧
    ∀ p, p ∈ t.peers ↔ p ∈ s.peers ∧ p.id ≠ k) ∧
  (∀ s t : State, PeersInv s → step s = .next t → PeersInv t)

/-- R147: RELEASE ends with ERR_CODE = NONE and INITIALIZED = 0 from every idle state; with CONFIGURED = 1 it resets SCL,
then SDA, to NEUTRAL whatever the Pin Driver says of the pins, and with CONFIGURED = 0 it performs no pin action. -/
def Obligations.ReleaseNeutralisesBothLines : Prop :=
  ∀ s : State, s.st.busy = false → HostDone s →
    ∃ t, exec .release s = .next t ∧
      (s.st.configured = true → Reaches t { s with
        st := { doneStatus s.st .neutral .neutral with initialized := false }
        work := idleWork s.work s 0 0
        trace := s.trace ++ [.rst .scl, .rst .sda] }) ∧
      (s.st.configured = false → Reaches t { s with
        st := { doneStatus s.st s.st.scl s.st.sda with initialized := false }
        work := idleWork s.work s 0 0 })

/-- R149, R150: WRITE with no stretching and every byte ACKed sends the address byte and the n bytes of TXBUF between
one START and one STOP, and ends with ERR_CODE = NONE, both lines RELEASED and every register and buffer as it was. -/
def Obligations.WriteSendsItsBytes : Prop :=
  ∀ (s : State) (a : Addr) (n : Half) (data : List Byte) (scl sda : List Bool),
    s.st.busy = false → HostDone s → s.st.initialized = true → PinsValid s → n.toNat ≤ s.plat.bufLen →
    s.txbuf.readFrom n.toNat 0 = .ok data →
    s.env.sclDraws = List.replicate (1 + 9 * (n.toNat + 1)) true ++ scl →
    s.env.sdaDraws = List.replicate (n.toNat + 1) false ++ sda →
    ∃ t, exec (.write a n) s = .next t ∧ ∃ w, w.tasks = [] ∧ w.handler = .none ∧ w.biti = 0 ∧ Reaches t { s with
      st := doneStatus s.st .released .released
      work := w
      env := { s.env with sclDraws := scl, sdaDraws := sda }
      trace := s.trace ++ writeTrace s.cur.half.toNat a data }

/-- R152, R153, R154: READ with no stretching and its address ACKed stores the n bytes the slave sends in RXBUF[0..n) in
wire order, counts them in RX_COUNT, NACKs the last one only, and ends with ERR_CODE = NONE and both lines RELEASED;
with n = 0 it is the address-only probe (R155). -/
def Obligations.ReadStoresTheBytesSent : Prop :=
  ∀ (s : State) (a : Addr) (n : Half) (data : List Byte) (scl sda : List Bool),
    s.st.busy = false → HostDone s → s.st.initialized = true → PinsValid s → n.toNat ≤ s.plat.bufLen →
    data.length = n.toNat →
    s.env.sclDraws = List.replicate (1 + 9 * (n.toNat + 1)) true ++ scl →
    s.env.sdaDraws = false :: data.flatMap bitsOf ++ sda →
    ∃ t, exec (.read a n) s = .next t ∧ ∃ w, w.tasks = [] ∧ w.handler = .none ∧ w.biti = 0 ∧ Reaches t { s with
      st := doneStatus s.st .released .released
      reg := { s.reg with rxCount := n }
      work := w
      rxbuf := s.rxbuf.writeFrom 0 data
      env := { s.env with sclDraws := scl, sdaDraws := sda }
      trace := s.trace ++ readTrace s.cur.half.toNat a data }

/-- R149 to R153, R155, R182, R183, R185, R203, R205, with no stretching but the one that times out: every NACK and every
ClockTimeout of a transaction (`WriteFails`, `ReadFails`: in START, in the address byte, in a data byte, at every bit and in
its ACK or ACK/NACK phase) ends the command with the cleanup STOP and is reported with its phase and the direction of its
transaction, both lines RELEASED and STOP_FAIL = 0. A byte after a NACKed or cut one is not sent; a READ keeps the bytes it
stored before, and RX_COUNT counts them; after an error of its write DCR has no delay and no read, and after one of its read
no decode. -/
def Obligations.BusErrorsEndWithStopAndNameTheirPhase : Prop :=
  ∀ (s : State) (a : Addr) (n : Half) (scl sda : List Bool) (x : BusError),
    s.st.busy = false → HostDone s → s.st.initialized = true → PinsValid s →
    let cmd := [s.reg.argCmd.extractLsb' 8 8, s.reg.argCmd.extractLsb' 0 8]
    let failed (dir : Dir) (w : Work) (before : List Action) : State := { s with
      st := failedStatus s.st x.err x.phase dir .released .released
      work := w
      env := { s.env with sclDraws := scl, sdaDraws := sda }
      trace := s.trace ++ before ++ x.trace }
    (∀ data : List Byte, n.toNat ≤ s.plat.bufLen → data.length ≤ n.toNat → s.txbuf.readFrom data.length 0 = .ok data →
      WriteFails s.cur (addrByteWrite a :: data) x →
      s.env.sclDraws = x.sclDraws ++ scl → s.env.sdaDraws = x.sdaDraws ++ sda →
      ∃ t, exec (.write a n) s = .next t ∧ ∃ w, w.tasks = [] ∧ w.handler = .none ∧ Reaches t (failed .write w [])) ∧
    (∀ got : List Byte, n.toNat ≤ s.plat.bufLen → ReadFails s.cur a n.toNat got x →
      s.env.sclDraws = x.sclDraws ++ scl → s.env.sdaDraws = x.sdaDraws ++ sda →
      ∃ t, exec (.read a n) s = .next t ∧ ∃ w, w.tasks = [] ∧ w.handler = .none ∧ Reaches t { failed .read w [] with
        reg := { s.reg with rxCount := BitVec.ofNat 16 got.length }
        rxbuf := s.rxbuf.writeFrom 0 got }) ∧
    (n.toNat ≤ s.plat.wbufLen → 3 * n.toNat ≤ s.plat.bufLen → WriteFails s.cur (addrByteWrite a :: cmd) x →
      s.env.sclDraws = x.sclDraws ++ scl → s.env.sdaDraws = x.sdaDraws ++ sda →
      ∃ t, exec (.dcr a n) s = .next t ∧ ∃ w, w.tasks = [] ∧ w.handler = .none ∧ Reaches t { failed .write w [] with
        reg := { s.reg with rxCount := 0 }
        txbuf := s.txbuf.writeFrom 0 cmd }) ∧
    (∀ got : List Byte, n.toNat ≤ s.plat.wbufLen → 3 * n.toNat ≤ s.plat.bufLen → s.plat.wf = true →
      ReadFails s.cur a (3 * n.toNat) got x →
      s.env.sclDraws = List.replicate (1 + 9 * 3) true ++ x.sclDraws ++ scl →
      s.env.sdaDraws = [false, false, false] ++ x.sdaDraws ++ sda →
      ∃ t, exec (.dcr a n) s = .next t ∧ ∃ w, w.tasks = [] ∧ w.handler = .none ∧
        Reaches t { failed .read w (writeTrace s.cur.half.toNat a cmd ++ [.slp s.reg.argDelay.toNat]) with
          reg := { s.reg with rxCount := BitVec.ofNat 16 got.length }
          txbuf := s.txbuf.writeFrom 0 cmd
          rxbuf := s.rxbuf.writeFrom 0 got })

/-- R152, R154: at byte i of n of a read transaction READ_BYTE runs with ack = false exactly when i = n - 1, and the
ACK/NACK phase then begins with PU(SDA), otherwise with LO(SDA). The loop's head as a step of its own is the model's
(log 5). -/
def Obligations.OnlyTheLastByteOfAReadIsNacked : Prop :=
  ∀ (s : State) (i n : Nat) (ts : List Task), s.work.tasks = .readData i n :: ts → i < n →
    ∃ ack t, seqStep s = .next t ∧ (ack = false ↔ i = n - 1) ∧
      t.work.tasks = readByte ack ++ [.storeByte i, .readData (i + 1) n] ++ ts ∧ t.trace = s.trace ∧
      (acknackPhase ack)[1]? = some (if i = n - 1 then .pullup .sda else .low .sda)

/-! ### 42_framing.md -/

/-- R170's iteration on natural numbers: the register doubled in 8 bits, and XORed with 0x31 when bit 7 was 1. -/
def crcIteration (c : Nat) : Nat := if 128 ≤ c then (2 * c % 256) ^^^ 0x31 else 2 * c

/-- R170 on natural numbers: each byte is XORed into the register before its eight iterations, and the register after the
last byte is the result (R171: no reflection, no final XOR). -/
def crcOf (init : Nat) : List Nat → Nat
  | [] => init
  | b :: bs => crcOf (Nat.repeat crcIteration 8 (init ^^^ b)) bs

/-- R171's table: the bytes, and their CRC-8 from init 0xFF and from init 0x00. -/
def crcTable : List (List Byte × Byte × Byte) :=
  [([], 0xFF, 0x00), ([0x00], 0xAC, 0x00), ([0xFF], 0x00, 0xAC), ([0xBE, 0xEF], 0x92, 0x13), ([0x00, 0x00], 0x81, 0x00),
   ([0xFF, 0xFF], 0xAC, 0x2D), ([0x12, 0x34], 0x37, 0xB6), ([0xAB, 0xCD], 0x6F, 0xEE)]

/-- R170, R171, R172: the model's CRC-8 is R170's function on every byte sequence and init, and has R171's table of values;
CRC8 of n written bytes of TXBUF gives R170's function of them in RESULT, zero-extended, in one step and with no pin
action. -/
def Obligations.Crc8PutsTheCrcInResult : Prop :=
  (∀ (bs : List Byte) (init : Byte), (crc8 bs init).toNat = crcOf init.toNat (bs.map (·.toNat))) ∧
  (∀ r ∈ crcTable, crc8 r.1 0xFF = r.2.1 ∧ crc8 r.1 0x00 = r.2.2) ∧
  ∀ (s : State) (n : Half) (bs : List Byte), s.st.busy = false → n.toNat ≤ s.plat.bufLen →
    s.txbuf.readFrom n.toNat 0 = .ok bs →
    exec (.crc8 n) s = .next { s with
      st := doneStatus s.st s.st.scl s.st.sda
      reg := { s.reg with result := BitVec.ofNat 16 (crcOf s.reg.crcInit.toNat (bs.map (·.toNat))) }
      work := idleWork s.work s 0 n }

/-- R174, R175: ENCODE of n written words puts the command's two bytes and then each argument's two bytes and CRC in
TXBUF[0..2+3n), RESULT = 2 + 3n, in one step and with no pin action; TXBUF from 2 + 3n on is as it was. -/
def Obligations.EncodeWritesTheFramedCommand : Prop :=
  ∀ (s : State) (n : Half) (args : List Half), s.st.busy = false → n.toNat ≤ s.plat.wbufLen →
    2 + 3 * n.toNat ≤ s.plat.bufLen → s.wordbuf.readFrom n.toNat 0 = .ok args →
    ∃ t, exec (.encode n) s = .next t ∧
      t = { s with
        st := doneStatus s.st s.st.scl s.st.sda
        reg := { s.reg with result := BitVec.ofNat 16 (2 + 3 * n.toNat) }
        work := idleWork s.work s 0 n
        txbuf := t.txbuf } ∧
      t.txbuf.get? 0 = some (s.reg.argCmd.extractLsb' 8 8) ∧ t.txbuf.get? 1 = some (s.reg.argCmd.extractLsb' 0 8) ∧
      (∀ j x, args[j]? = some x →
        t.txbuf.get? (2 + 3 * j) = some (x.extractLsb' 8 8) ∧
        t.txbuf.get? (3 + 3 * j) = some (x.extractLsb' 0 8) ∧
        t.txbuf.get? (4 + 3 * j) = some (crc8 [x.extractLsb' 8 8, x.extractLsb' 0 8] s.reg.crcInit)) ∧
      (∀ k, 2 + 3 * n.toNat ≤ k → t.txbuf.get? k = s.txbuf.get? k)

/-- R176, R178: DECODE of 3n written bytes stores the n words in WORDBUF when every group's CRC agrees, and otherwise
ends with CHECKSUM_MISMATCH and leaves WORDBUF as it was; in one step and with no pin action. -/
def Obligations.DecodeStoresWordsOnlyWhenEveryCrcAgrees : Prop :=
  ∀ (s : State) (n : Half) (raw : List Byte), s.st.busy = false → n.toNat ≤ s.plat.wbufLen →
    3 * n.toNat ≤ s.plat.bufLen → s.rxbuf.readFrom (3 * n.toNat) 0 = .ok raw →
    (∀ ws, decodeWords s.reg.crcInit raw = some ws → ws.length = n.toNat ∧
      exec (.decode n) s = .next { s with
        st := doneStatus s.st s.st.scl s.st.sda
        work := idleWork s.work s 0 n
        wordbuf := s.wordbuf.writeFrom 0 ws }) ∧
    (decodeWords s.reg.crcInit raw = none →
      exec (.decode n) s = .next { s with
        st := failedStatus s.st .checksumMismatch .none .write s.st.scl s.st.sda
        work := idleWork s.work s 0 n })

/-- R174, R176, R177, R179: the groups of any words, each a word big-endian and its CRC, decode to those words, for every
init; and the first group whose CRC disagrees decides the error, whatever follows it. -/
def Obligations.EncodedWordsDecodeAndTheFirstBadGroupDecides : Prop :=
  ∀ (init : Byte) (ws : List Half),
    let group (w : Half) : List Byte :=
      [w.extractLsb' 8 8, w.extractLsb' 0 8, crc8 [w.extractLsb' 8 8, w.extractLsb' 0 8] init]
    decodeWords init (ws.flatMap group) = some ws ∧
    ∀ (hi lo c : Byte) (rest : List Byte), crc8 [hi, lo] init ≠ c →
      decodeWords init (ws.flatMap group ++ hi :: lo :: c :: rest) = none

/-- R180: flipping any one of the 24 bits of a valid group makes it fail, for every pair of bytes and every init. -/
def Obligations.SingleBitFlipsAreDetected : Prop :=
  ∀ (init b0 b1 : Byte) (k : Nat), k < 8 →
    let c := crc8 [b0, b1] init
    let bit : Byte := 1#8 <<< k
    decodeWords init [b0 ^^^ bit, b1, c] = none ∧ decodeWords init [b0, b1 ^^^ bit, c] = none ∧
    decodeWords init [b0, b1, c ^^^ bit] = none

/-- R182, R184, R185: DCR with no stretching and every written byte ACKed writes the two bytes of ARG_CMD, sleeps
ARG_DELAY_MS ms, reads 3n bytes, and stores the n words in WORDBUF when every CRC agrees; otherwise it ends with
CHECKSUM_MISMATCH and leaves WORDBUF as it was. -/
def Obligations.DcrWritesWaitsReadsAndDecodes : Prop :=
  ∀ (s : State) (a : Addr) (n : Half) (data : List Byte) (scl sda : List Bool),
    s.st.busy = false → HostDone s → s.st.initialized = true → PinsValid s → n.toNat ≤ s.plat.wbufLen →
    3 * n.toNat ≤ s.plat.bufLen → s.plat.wf = true → data.length = 3 * n.toNat →
    s.env.sclDraws = List.replicate (1 + 9 * 3 + (1 + 9 * (3 * n.toNat + 1))) true ++ scl →
    s.env.sdaDraws = [false, false, false] ++ false :: data.flatMap bitsOf ++ sda →
    let cmd := [s.reg.argCmd.extractLsb' 8 8, s.reg.argCmd.extractLsb' 0 8]
    let u (w : Work) : State := { s with
      st := doneStatus s.st .released .released
      reg := { s.reg with rxCount := BitVec.ofNat 16 (3 * n.toNat) }
      work := w
      txbuf := s.txbuf.writeFrom 0 cmd
      rxbuf := s.rxbuf.writeFrom 0 data
      env := { s.env with sclDraws := scl, sdaDraws := sda }
      trace := s.trace ++ writeTrace s.cur.half.toNat a cmd ++ [.slp s.reg.argDelay.toNat] ++
        readTrace s.cur.half.toNat a data }
    ∃ t, exec (.dcr a n) s = .next t ∧ ∃ w, w.tasks = [] ∧ w.handler = .none ∧
      (∀ ws, decodeWords s.reg.crcInit data = some ws →
        Reaches t { u w with wordbuf := s.wordbuf.writeFrom 0 ws }) ∧
      (decodeWords s.reg.crcInit data = none →
        Reaches t { u w with st := failedStatus s.st .checksumMismatch .none .write .released .released })

/-! ### 60_exceptions.md -/

/-- R205, R206, R208: an error raised inside a transaction runs STOP from whatever line states remain, and the command
ends with that error, its phase and its direction. With both pins accepted STOP succeeds and leaves the bus idle; with SDA
refused it fails at its first action, and with only SCL refused after LO(SDA) and a sleep, either of which sets STOP_FAIL
and masks nothing. -/
def Obligations.ErrorInATransactionRunsCleanupStop : Prop :=
  ∀ (s : State) (e : ErrCode) (ph : Phase) (dir : Dir),
    s.st.busy = true → HostDone s → s.work.handler = .cleanup ph dir → ph ≠ .none →
    (PinsValid s → Reaches (s.raise e) { s with
      st := { failedStatus s.st e ph dir .released .released with stopFail := s.st.stopFail }
      work := { s.work with tasks := [], handler := .none, biti := 0 }
      trace := s.trace ++ stopTrace s.cur.half.toNat }) ∧
    (s.pinOk .sda = false → Reaches (s.raise e) { s with
      st := { failedStatus s.st e ph dir s.st.scl s.st.sda with stopFail := true }
      work := { s.work with tasks := [], handler := .none, biti := 0 } }) ∧
    (s.pinOk .sda = true → s.pinOk .scl = false → Reaches (s.raise e) { s with
      st := { failedStatus s.st e ph dir s.st.scl .drivenLow with stopFail := true }
      work := { s.work with tasks := [], handler := .none, biti := 0 }
      trace := s.trace ++ [.lo .sda, .slp s.cur.half.toNat] })

/-- R210: a sequencer never hangs. From every state of a running command the command ends, or the model faults, within
the stated number of steps, whatever the ENV answers. The count of steps is the model's (log 5). -/
def Obligations.EveryCommandEnds : Prop :=
  ∀ s : State, PositionInv s → s.st.busy = true → HostDone s →
    ∃ k ≤ stepsBound s, (∃ t, Host.Core.run Sys2Proof.core k s = .next t ∧ t.st.busy = false) ∨
      ∃ f, Host.Core.run Sys2Proof.core k s = .fault f

/-- R141, R241: a running command does not see CFG_SCL_PIN, CFG_SDA_PIN, CFG_CLOCK_PERIOD_MS, CRC_INIT, ARG_CMD or
ARG_DELAY_MS: with other values in them the sequencer takes the same step. -/
def Obligations.HostRegistersDoNotDisturbARunningCommand : Prop :=
  ∀ (s : State) (scl sda : PinId) (p cmd d : Half) (ci : Byte),
    let other (x : State) : State := { x with reg := { x.reg with
      cfgSclPin := scl, cfgSdaPin := sda, cfgPeriod := p, crcInit := ci, argCmd := cmd, argDelay := d } }
    (∀ t, seqStep s = .next t → seqStep (other s) = .next (other t)) ∧
    (∀ f, seqStep s = .fault f → seqStep (other s) = .fault f)

/-! ### Frames -/

/-- What a command leaves alone when exec answers a next state: TRACE, both lines, RXBUF, the host, the ENV's inputs, the
other instances, the platform and the free values, always; the latched configuration, HALF_PERIOD_MS, STRETCH_RETRIES
and CONFIGURED but for CONFIGURE; RESULT but for CRC8 and ENCODE; RX_COUNT but for READ and DCR; TXBUF but for ENCODE
(the first 2 + 3n bytes) and DCR (the first two); WORDBUF but for DECODE (the first n words); every other register and
INITIALIZED, always. -/
def Obligations.CommandFrame : Prop :=
  ∀ (i : Instr) (s t : State), exec i s = .next t →
    (t.trace = s.trace ∧ t.st.scl = s.st.scl ∧ t.st.sda = s.st.sda ∧ t.rxbuf = s.rxbuf ∧ t.host = s.host ∧
      t.env = s.env ∧ t.peers = s.peers ∧ t.plat = s.plat ∧ t.fresh = s.fresh ∧
      t.st.initialized = s.st.initialized) ∧
    (t.work.shift = s.work.shift ∧ t.work.retryLeft = s.work.retryLeft ∧ t.work.byteIdx = s.work.byteIdx ∧
      t.work.ackBit = s.work.ackBit) ∧
    (t.reg = { s.reg with
      halfPeriod := t.reg.halfPeriod, stretchRetries := t.reg.stretchRetries, result := t.reg.result,
      rxCount := t.reg.rxCount }) ∧
    (i ≠ .configure → t.cur = s.cur ∧ t.reg.halfPeriod = s.reg.halfPeriod ∧
      t.reg.stretchRetries = s.reg.stretchRetries ∧ t.st.configured = s.st.configured) ∧
    ((∀ n, i ≠ .crc8 n) → (∀ n, i ≠ .encode n) → t.reg.result = s.reg.result) ∧
    ((∀ a n, i ≠ .read a n) → (∀ a n, i ≠ .dcr a n) → t.reg.rxCount = s.reg.rxCount) ∧
    ((∀ n, i ≠ .encode n) → (∀ a n, i ≠ .dcr a n) → t.txbuf = s.txbuf) ∧
    (∀ n, i = .encode n → ∀ k, 2 + 3 * n.toNat ≤ k → t.txbuf.get? k = s.txbuf.get? k) ∧
    (∀ a n, i = .dcr a n → ∀ k, 2 ≤ k → t.txbuf.get? k = s.txbuf.get? k) ∧
    ((∀ n, i ≠ .decode n) → t.wordbuf = s.wordbuf) ∧
    (∀ n, i = .decode n → ∀ k, n.toNat ≤ k → t.wordbuf.get? k = s.wordbuf.get? k)

/-- What the sequencer's step leaves alone while a command runs: the latched configuration, TXBUF, every register but
RX_COUNT, CONFIGURED, the sampled operands, the host, the other instances and the platform, always; RXBUF and RX_COUNT
but for the store of byte i, which touches element i alone; WORDBUF but for the end of DCR, which touches the first n
words alone; INITIALIZED but for the ends of INIT and RELEASE. That a step is one line of the pseudocode is the model's
(log 5). -/
def Obligations.SequencerFrame : Prop :=
  ∀ (s t : State) (k : Task) (ts : List Task), s.work.tasks = k :: ts → seqStep s = .next t →
    (t.cur = s.cur ∧ t.txbuf = s.txbuf ∧ t.reg = { s.reg with rxCount := t.reg.rxCount } ∧
      t.st.configured = s.st.configured ∧ t.work.opn = s.work.opn ∧ t.host = s.host ∧ t.peers = s.peers ∧
      t.plat = s.plat) ∧
    ((∀ i, k ≠ .storeByte i) → t.rxbuf = s.rxbuf ∧ t.reg.rxCount = s.reg.rxCount) ∧
    (∀ i, k = .storeByte i → t.reg.rxCount = BitVec.ofNat 16 (i + 1) ∧ t.rxbuf.get? i = some s.work.shift ∧
      ∀ j, j ≠ i → t.rxbuf.get? j = s.rxbuf.get? j) ∧
    (k ≠ .decodeRaw → t.wordbuf = s.wordbuf) ∧
    (k = .decodeRaw → ∀ j, s.work.opn.n.toNat ≤ j → t.wordbuf.get? j = s.wordbuf.get? j) ∧
    (k ≠ .initDone → k ≠ .releaseDone → t.st.initialized = s.st.initialized)

/-- What the host's accesses leave alone, but for writes to CMD (commands) and the reset input: STATUS, the latched
configuration, the sequencer, TRACE and the platform; a register write touches one register, a buffer write one element,
a read none (R68). -/
def Obligations.HostAccessFrame : Prop :=
  ∀ (o : HostOp) (s t : State), (∀ v, o ≠ .wr 0 v) → o ≠ .reset → runHostOp o s = .next t →
    (t.st = s.st ∧ t.cur = s.cur ∧ t.work = s.work ∧ t.trace = s.trace ∧ t.plat = s.plat ∧ t.env = s.env) ∧
    ((∀ n v, o ≠ .wr n v) → t.reg = s.reg) ∧
    (∀ n v, o = .wr n v → ∀ m, m ≠ n → t.regRead m = s.regRead m) ∧
    ((∀ b i v, o ≠ .bw b i v) → t.txbuf = s.txbuf ∧ t.rxbuf = s.rxbuf ∧ t.wordbuf = s.wordbuf) ∧
    (∀ b i v, o = .bw b i v → ∀ c j, ¬ (c = b ∧ j = i) → t.element c j = s.element c j)

/-! ### Invariants of every step -/

/-- The position of a running command always leads to the command's end, and an idle machine shows no command. -/
def Obligations.StepKeepsThePosition : Prop :=
  ∀ s t : State, PositionInv s → step s = .next t → PositionInv t

/-- STRETCH_WAIT is 1 exactly inside WAIT_CLOCK_HIGH (R31, R106). -/
def Obligations.StepKeepsStretchWaitTrue : Prop :=
  ∀ s t : State, PositionInv s → StretchInv s → step s = .next t → StretchInv t

/-- HALF_PERIOD_MS and STRETCH_RETRIES show the latched values (R35). -/
def Obligations.StepKeepsTheMirroredRegisters : Prop :=
  ∀ s t : State, MirrorInv s → step s = .next t → MirrorInv t

/-- While CONFIGURED = 0 both lines are NEUTRAL (R144). -/
def Obligations.StepKeepsUnconfiguredLinesNeutral : Prop :=
  ∀ s t : State, ConfiguredInv s → step s = .next t → ConfiguredInv t

/-- Every command of an initialized block leaves the bus idle (R111), both pins being accepted (R204). -/
def Obligations.StepKeepsTheBusIdleBetweenCommands : Prop :=
  ∀ s t : State, PositionInv s → BusInv s → step s = .next t → BusInv t

/-- The block reads SCL and SDA only while they are RELEASED (R106, R121). -/
def Obligations.StepKeepsReadsOnReleasedLines : Prop :=
  ∀ s t : State, ReadsInv s → step s = .next t → ReadsInv t

/-- STOP_FAIL and ERR_PHASE = STOP are unreachable (R204). -/
def Obligations.StepKeepsStopsSucceeding : Prop :=
  ∀ s t : State, StopInv s → step s = .next t → StopInv t

/-- Every memory keeps its canonical form. -/
def Obligations.StepKeepsMemoriesCanonical : Prop :=
  ∀ s t : State, MemoryWf s → step s = .next t → MemoryWf t

/-- Every written element is inside its buffer (R63). -/
def Obligations.StepKeepsElementsInsideTheBuffers : Prop :=
  ∀ s t : State, BoundsInv s → step s = .next t → BoundsInv t

/-- The reset state meets every invariant, on the platform it carries (log 2). -/
def Obligations.ResetMeetsEveryInvariant : Prop :=
  PositionInv State.reset ∧ StretchInv State.reset ∧ MirrorInv State.reset ∧ ConfiguredInv State.reset ∧
  BusInv State.reset ∧ ReadsInv State.reset ∧ StopInv State.reset ∧ MemoryWf State.reset ∧ BoundsInv State.reset ∧
  PeersInv State.reset

/-- What the invariants say of the states a host can see: between commands an initialized block's lines are RELEASED
(R111), no pin action of its fails (R204), and a read the sequencer traces is of a RELEASED line (R121). -/
def Obligations.InvariantsGiveTheRules : Prop :=
  (∀ s : State, PositionInv s → BusInv s → s.st.busy = false → s.st.initialized = true →
    s.st.scl = .released ∧ s.st.sda = .released) ∧
  (∀ (s : State) (l : Line), StopInv s → s.st.initialized = true →
    (∃ t, s.pinPullup l = .ok t) ∧ (∃ t, s.pinLow l = .ok t) ∧ ∃ r, s.pinRead l = .ok r) ∧
  (∀ (s t : State) (l : Line) (b : Bool), ReadsInv s → seqStep s = .next t → t.trace = s.trace ++ [.rd l b] →
    s.lineOf l = .released)

/-! ### Timing (R246) -/

/-- R246 and the action counts of the test vectors: a WRITE of n bytes with no stretching and every byte ACKed performs
67 + 55n actions and sleeps (22 + 17n)h ms from its acceptance to its end, and a READ of n bytes with no stretching and its
address ACKed 67 + 48n actions and (22 + 10n)h ms. -/
def Obligations.TransactionsSleepAsAccounted : Prop :=
  ∀ (s : State) (a : Addr) (n : Half) (scl sda : List Bool),
    s.st.busy = false → HostDone s → s.st.initialized = true → PinsValid s → n.toNat ≤ s.plat.bufLen →
    s.env.sclDraws = List.replicate (1 + 9 * (n.toNat + 1)) true ++ scl →
    (∀ data : List Byte, s.txbuf.readFrom n.toNat 0 = .ok data →
      s.env.sdaDraws = List.replicate (n.toNat + 1) false ++ sda →
      ∃ t u tr, exec (.write a n) s = .next t ∧ Reaches t u ∧ u.st.busy = false ∧ u.st.errCode = .none ∧
        u.trace = s.trace ++ tr ∧ tr.length = 67 + 55 * n.toNat ∧
        sleepTotal tr = (22 + 17 * n.toNat) * s.cur.half.toNat) ∧
    (∀ data : List Byte, data.length = n.toNat → s.env.sdaDraws = false :: data.flatMap bitsOf ++ sda →
      ∃ t u tr, exec (.read a n) s = .next t ∧ Reaches t u ∧ u.st.busy = false ∧ u.st.errCode = .none ∧
        u.trace = s.trace ++ tr ∧ tr.length = 67 + 48 * n.toNat ∧
        sleepTotal tr = (22 + 10 * n.toNat) * s.cur.half.toNat)
end

