-- ==== Sys2Proof/Laws/Encoding.lean ====
section
/-! SUPPORT. The fields of format C read back from a word it builds (R81, R88). -/

namespace Sys2Proof

/-- Bit i of a word of format C: OPC below bit 8, ADDR from 8 to 14, N from 16 on, RSV = 0 (R81). -/
theorem formatC_getLsbD (o : Byte) (a : Addr) (n : Half) (i : Nat) (h : i < 32) :
    (formatC o a n).getLsbD i =
      if i < 8 then o.getLsbD i
      else if i < 15 then a.getLsbD (i - 8)
      else if i < 16 then false
      else n.getLsbD (i - 16) := by
  interval_cases i <;> simp [formatC]

/-- OPC reads back. -/
@[simp] theorem opcOf_formatC (o : Byte) (a : Addr) (n : Half) : opcOf (formatC o a n) = o := by
  apply BitVec.eq_of_getLsbD_eq
  intro i hi
  simp only [opcOf, BitVec.getLsbD_extractLsb', hi, decide_true, Bool.true_and]
  rw [formatC_getLsbD _ _ _ _ (by omega)]
  simp [hi]

/-- ADDR reads back. -/
@[simp] theorem addrOf_formatC (o : Byte) (a : Addr) (n : Half) : addrOf (formatC o a n) = a := by
  apply BitVec.eq_of_getLsbD_eq
  intro i hi
  simp only [addrOf, BitVec.getLsbD_extractLsb', hi, decide_true, Bool.true_and]
  rw [formatC_getLsbD _ _ _ _ (by omega)]
  rw [if_neg (by omega), if_pos (by omega), show 8 + i - 8 = i by omega]

/-- N reads back. -/
@[simp] theorem countOf_formatC (o : Byte) (a : Addr) (n : Half) : countOf (formatC o a n) = n := by
  apply BitVec.eq_of_getLsbD_eq
  intro i hi
  simp only [countOf, BitVec.getLsbD_extractLsb', hi, decide_true, Bool.true_and]
  rw [formatC_getLsbD _ _ _ _ (by omega)]
  rw [if_neg (by omega), if_neg (by omega), if_neg (by omega), show 16 + i - 16 = i by omega]

/-- RSV is 0. -/
@[simp] theorem rsvOf_formatC (o : Byte) (a : Addr) (n : Half) : rsvOf (formatC o a n) = false := by
  simp only [rsvOf]
  rw [formatC_getLsbD _ _ _ _ (by omega)]
  simp

/-- The bits that a row with an address and a count fixes (R84). -/
theorem formatC_and_addrMask (o : Byte) (a : Addr) (n : Half) : formatC o a n &&& 0x000080FF = o.setWidth 32 := by
  ext i hi
  rw [BitVec.getElem_and, ← BitVec.getLsbD_eq_getElem, formatC_getLsbD _ _ _ _ hi]
  interval_cases i <;> simp

/-- The bits that a row with a count and no address fixes (R84). -/
theorem formatC_and_countMask (o : Byte) (n : Half) : formatC o 0 n &&& 0x0000FFFF = o.setWidth 32 := by
  ext i hi
  rw [BitVec.getElem_and, ← BitVec.getLsbD_eq_getElem, formatC_getLsbD _ _ _ _ hi]
  interval_cases i <;> simp

/-- Every 7-bit address fits its field (R81). -/
@[simp] theorem fitsAddr_toNat (a : Addr) : fitsAddr a.toNat = true := by
  have := a.isLt
  simp [fitsAddr]; omega

/-- Every 16-bit count fits its field (R81). -/
@[simp] theorem fitsCount_toNat (n : Half) : fitsCount n.toNat = true := by
  have := n.isLt
  simp [fitsCount]; omega

end Sys2Proof
end

