-- ==== Sys2Proof/Laws/State.lean ====
section
/-! SUPPORT. One lemma per field of State per update: what the update leaves in it. -/

namespace Sys2Proof.Machine

variable (s : State)

/-! `State.act` -/

@[simp] theorem State.act_st (a : Action) : (s.act a).st = s.st := rfl
@[simp] theorem State.act_reg (a : Action) : (s.act a).reg = s.reg := rfl
@[simp] theorem State.act_cur (a : Action) : (s.act a).cur = s.cur := rfl
@[simp] theorem State.act_work (a : Action) : (s.act a).work = s.work := rfl
@[simp] theorem State.act_txbuf (a : Action) : (s.act a).txbuf = s.txbuf := rfl
@[simp] theorem State.act_rxbuf (a : Action) : (s.act a).rxbuf = s.rxbuf := rfl
@[simp] theorem State.act_wordbuf (a : Action) : (s.act a).wordbuf = s.wordbuf := rfl
@[simp] theorem State.act_trace (a : Action) : (s.act a).trace = s.trace ++ [a] := rfl
@[simp] theorem State.act_host (a : Action) : (s.act a).host = s.host := rfl
@[simp] theorem State.act_env (a : Action) : (s.act a).env = s.env := rfl
@[simp] theorem State.act_peers (a : Action) : (s.act a).peers = s.peers := rfl
@[simp] theorem State.act_plat (a : Action) : (s.act a).plat = s.plat := rfl
@[simp] theorem State.act_fresh (a : Action) : (s.act a).fresh = s.fresh := rfl

/-! `State.setStretch` -/

@[simp] theorem State.setStretch_st (b : Bool) : (s.setStretch b).st = { s.st with stretchWait := b } := rfl
@[simp] theorem State.setStretch_reg (b : Bool) : (s.setStretch b).reg = s.reg := rfl
@[simp] theorem State.setStretch_cur (b : Bool) : (s.setStretch b).cur = s.cur := rfl
@[simp] theorem State.setStretch_work (b : Bool) : (s.setStretch b).work = s.work := rfl
@[simp] theorem State.setStretch_txbuf (b : Bool) : (s.setStretch b).txbuf = s.txbuf := rfl
@[simp] theorem State.setStretch_rxbuf (b : Bool) : (s.setStretch b).rxbuf = s.rxbuf := rfl
@[simp] theorem State.setStretch_wordbuf (b : Bool) : (s.setStretch b).wordbuf = s.wordbuf := rfl
@[simp] theorem State.setStretch_trace (b : Bool) : (s.setStretch b).trace = s.trace := rfl
@[simp] theorem State.setStretch_host (b : Bool) : (s.setStretch b).host = s.host := rfl
@[simp] theorem State.setStretch_env (b : Bool) : (s.setStretch b).env = s.env := rfl
@[simp] theorem State.setStretch_peers (b : Bool) : (s.setStretch b).peers = s.peers := rfl
@[simp] theorem State.setStretch_plat (b : Bool) : (s.setStretch b).plat = s.plat := rfl
@[simp] theorem State.setStretch_fresh (b : Bool) : (s.setStretch b).fresh = s.fresh := rfl

/-! `State.setStopFail` -/

@[simp] theorem State.setStopFail_st : s.setStopFail.st = { s.st with stopFail := true } := rfl
@[simp] theorem State.setStopFail_reg : s.setStopFail.reg = s.reg := rfl
@[simp] theorem State.setStopFail_cur : s.setStopFail.cur = s.cur := rfl
@[simp] theorem State.setStopFail_work : s.setStopFail.work = s.work := rfl
@[simp] theorem State.setStopFail_txbuf : s.setStopFail.txbuf = s.txbuf := rfl
@[simp] theorem State.setStopFail_rxbuf : s.setStopFail.rxbuf = s.rxbuf := rfl
@[simp] theorem State.setStopFail_wordbuf : s.setStopFail.wordbuf = s.wordbuf := rfl
@[simp] theorem State.setStopFail_trace : s.setStopFail.trace = s.trace := rfl
@[simp] theorem State.setStopFail_host : s.setStopFail.host = s.host := rfl
@[simp] theorem State.setStopFail_env : s.setStopFail.env = s.env := rfl
@[simp] theorem State.setStopFail_peers : s.setStopFail.peers = s.peers := rfl
@[simp] theorem State.setStopFail_plat : s.setStopFail.plat = s.plat := rfl
@[simp] theorem State.setStopFail_fresh : s.setStopFail.fresh = s.fresh := rfl

/-! `State.push` -/

@[simp] theorem State.push_st (ts : List Task) : (s.push ts).st = s.st := rfl
@[simp] theorem State.push_reg (ts : List Task) : (s.push ts).reg = s.reg := rfl
@[simp] theorem State.push_cur (ts : List Task) : (s.push ts).cur = s.cur := rfl
@[simp] theorem State.push_work (ts : List Task) :
    (s.push ts).work =
      { s.work with tasks := ts ++ s.work.tasks } := rfl
@[simp] theorem State.push_txbuf (ts : List Task) : (s.push ts).txbuf = s.txbuf := rfl
@[simp] theorem State.push_rxbuf (ts : List Task) : (s.push ts).rxbuf = s.rxbuf := rfl
@[simp] theorem State.push_wordbuf (ts : List Task) : (s.push ts).wordbuf = s.wordbuf := rfl
@[simp] theorem State.push_trace (ts : List Task) : (s.push ts).trace = s.trace := rfl
@[simp] theorem State.push_host (ts : List Task) : (s.push ts).host = s.host := rfl
@[simp] theorem State.push_env (ts : List Task) : (s.push ts).env = s.env := rfl
@[simp] theorem State.push_peers (ts : List Task) : (s.push ts).peers = s.peers := rfl
@[simp] theorem State.push_plat (ts : List Task) : (s.push ts).plat = s.plat := rfl
@[simp] theorem State.push_fresh (ts : List Task) : (s.push ts).fresh = s.fresh := rfl

/-! `State.goTo` -/

@[simp] theorem State.goTo_st (ts : List Task) (h : Handler) : (s.goTo ts h).st = s.st := rfl
@[simp] theorem State.goTo_reg (ts : List Task) (h : Handler) : (s.goTo ts h).reg = s.reg := rfl
@[simp] theorem State.goTo_cur (ts : List Task) (h : Handler) : (s.goTo ts h).cur = s.cur := rfl
@[simp] theorem State.goTo_work (ts : List Task) (h : Handler) :
    (s.goTo ts h).work =
      { s.work with tasks := ts, handler := h } := rfl
@[simp] theorem State.goTo_txbuf (ts : List Task) (h : Handler) : (s.goTo ts h).txbuf = s.txbuf := rfl
@[simp] theorem State.goTo_rxbuf (ts : List Task) (h : Handler) : (s.goTo ts h).rxbuf = s.rxbuf := rfl
@[simp] theorem State.goTo_wordbuf (ts : List Task) (h : Handler) : (s.goTo ts h).wordbuf = s.wordbuf := rfl
@[simp] theorem State.goTo_trace (ts : List Task) (h : Handler) : (s.goTo ts h).trace = s.trace := rfl
@[simp] theorem State.goTo_host (ts : List Task) (h : Handler) : (s.goTo ts h).host = s.host := rfl
@[simp] theorem State.goTo_env (ts : List Task) (h : Handler) : (s.goTo ts h).env = s.env := rfl
@[simp] theorem State.goTo_peers (ts : List Task) (h : Handler) : (s.goTo ts h).peers = s.peers := rfl
@[simp] theorem State.goTo_plat (ts : List Task) (h : Handler) : (s.goTo ts h).plat = s.plat := rfl
@[simp] theorem State.goTo_fresh (ts : List Task) (h : Handler) : (s.goTo ts h).fresh = s.fresh := rfl

/-! `State.clearErr` -/

@[simp] theorem State.clearErr_st :
    s.clearErr.st =
      { s.st with errCode := .none, errPhase := .none, errDir := .write, stopFail := false } := rfl
@[simp] theorem State.clearErr_reg : s.clearErr.reg = s.reg := rfl
@[simp] theorem State.clearErr_cur : s.clearErr.cur = s.cur := rfl
@[simp] theorem State.clearErr_work : s.clearErr.work = s.work := rfl
@[simp] theorem State.clearErr_txbuf : s.clearErr.txbuf = s.txbuf := rfl
@[simp] theorem State.clearErr_rxbuf : s.clearErr.rxbuf = s.rxbuf := rfl
@[simp] theorem State.clearErr_wordbuf : s.clearErr.wordbuf = s.wordbuf := rfl
@[simp] theorem State.clearErr_trace : s.clearErr.trace = s.trace := rfl
@[simp] theorem State.clearErr_host : s.clearErr.host = s.host := rfl
@[simp] theorem State.clearErr_env : s.clearErr.env = s.env := rfl
@[simp] theorem State.clearErr_peers : s.clearErr.peers = s.peers := rfl
@[simp] theorem State.clearErr_plat : s.clearErr.plat = s.plat := rfl
@[simp] theorem State.clearErr_fresh : s.clearErr.fresh = s.fresh := rfl

/-! `State.finish` -/

@[simp] theorem State.finish_st (e : ErrCode) (ph : Phase) (d : Dir) :
    (s.finish e ph d).st =
      { s.st with errCode := e, errPhase := ph, errDir := finishDir ph d, fsm := .idle, stretchWait := false, busy := false } := rfl
@[simp] theorem State.finish_reg (e : ErrCode) (ph : Phase) (d : Dir) : (s.finish e ph d).reg = s.reg := rfl
@[simp] theorem State.finish_cur (e : ErrCode) (ph : Phase) (d : Dir) : (s.finish e ph d).cur = s.cur := rfl
@[simp] theorem State.finish_work (e : ErrCode) (ph : Phase) (d : Dir) :
    (s.finish e ph d).work =
      { s.work with biti := 0, tasks := [], handler := .none } := rfl
@[simp] theorem State.finish_txbuf (e : ErrCode) (ph : Phase) (d : Dir) : (s.finish e ph d).txbuf = s.txbuf := rfl
@[simp] theorem State.finish_rxbuf (e : ErrCode) (ph : Phase) (d : Dir) : (s.finish e ph d).rxbuf = s.rxbuf := rfl
@[simp] theorem State.finish_wordbuf (e : ErrCode) (ph : Phase) (d : Dir) :
    (s.finish e ph d).wordbuf =
      s.wordbuf := rfl
@[simp] theorem State.finish_trace (e : ErrCode) (ph : Phase) (d : Dir) : (s.finish e ph d).trace = s.trace := rfl
@[simp] theorem State.finish_host (e : ErrCode) (ph : Phase) (d : Dir) : (s.finish e ph d).host = s.host := rfl
@[simp] theorem State.finish_env (e : ErrCode) (ph : Phase) (d : Dir) : (s.finish e ph d).env = s.env := rfl
@[simp] theorem State.finish_peers (e : ErrCode) (ph : Phase) (d : Dir) : (s.finish e ph d).peers = s.peers := rfl
@[simp] theorem State.finish_plat (e : ErrCode) (ph : Phase) (d : Dir) : (s.finish e ph d).plat = s.plat := rfl
@[simp] theorem State.finish_fresh (e : ErrCode) (ph : Phase) (d : Dir) : (s.finish e ph d).fresh = s.fresh := rfl

/-! `State.accepted` -/

@[simp] theorem State.accepted_st (a : Addr) (n : Half) :
    (s.accepted a n).st =
      { s.clearErr.st with busy := true } := rfl
@[simp] theorem State.accepted_reg (a : Addr) (n : Half) : (s.accepted a n).reg = s.reg := rfl
@[simp] theorem State.accepted_cur (a : Addr) (n : Half) : (s.accepted a n).cur = s.cur := rfl
@[simp] theorem State.accepted_work (a : Addr) (n : Half) :
    (s.accepted a n).work =
      { s.work with opn := { addr := a, n := n, cmd16 := s.reg.argCmd, delay := s.reg.argDelay, init := s.reg.crcInit } } := rfl
@[simp] theorem State.accepted_txbuf (a : Addr) (n : Half) : (s.accepted a n).txbuf = s.txbuf := rfl
@[simp] theorem State.accepted_rxbuf (a : Addr) (n : Half) : (s.accepted a n).rxbuf = s.rxbuf := rfl
@[simp] theorem State.accepted_wordbuf (a : Addr) (n : Half) : (s.accepted a n).wordbuf = s.wordbuf := rfl
@[simp] theorem State.accepted_trace (a : Addr) (n : Half) : (s.accepted a n).trace = s.trace := rfl
@[simp] theorem State.accepted_host (a : Addr) (n : Half) : (s.accepted a n).host = s.host := rfl
@[simp] theorem State.accepted_env (a : Addr) (n : Half) : (s.accepted a n).env = s.env := rfl
@[simp] theorem State.accepted_peers (a : Addr) (n : Half) : (s.accepted a n).peers = s.peers := rfl
@[simp] theorem State.accepted_plat (a : Addr) (n : Half) : (s.accepted a n).plat = s.plat := rfl
@[simp] theorem State.accepted_fresh (a : Addr) (n : Half) : (s.accepted a n).fresh = s.fresh := rfl

/-! `State.setFsm` -/

@[simp] theorem State.setFsm_st (f : FsmState) : (s.setFsm f).st = { s.st with fsm := f } := rfl
@[simp] theorem State.setFsm_reg (f : FsmState) : (s.setFsm f).reg = s.reg := rfl
@[simp] theorem State.setFsm_cur (f : FsmState) : (s.setFsm f).cur = s.cur := rfl
@[simp] theorem State.setFsm_work (f : FsmState) : (s.setFsm f).work = s.work := rfl
@[simp] theorem State.setFsm_txbuf (f : FsmState) : (s.setFsm f).txbuf = s.txbuf := rfl
@[simp] theorem State.setFsm_rxbuf (f : FsmState) : (s.setFsm f).rxbuf = s.rxbuf := rfl
@[simp] theorem State.setFsm_wordbuf (f : FsmState) : (s.setFsm f).wordbuf = s.wordbuf := rfl
@[simp] theorem State.setFsm_trace (f : FsmState) : (s.setFsm f).trace = s.trace := rfl
@[simp] theorem State.setFsm_host (f : FsmState) : (s.setFsm f).host = s.host := rfl
@[simp] theorem State.setFsm_env (f : FsmState) : (s.setFsm f).env = s.env := rfl
@[simp] theorem State.setFsm_peers (f : FsmState) : (s.setFsm f).peers = s.peers := rfl
@[simp] theorem State.setFsm_plat (f : FsmState) : (s.setFsm f).plat = s.plat := rfl
@[simp] theorem State.setFsm_fresh (f : FsmState) : (s.setFsm f).fresh = s.fresh := rfl

/-! `State.setBiti` -/

@[simp] theorem State.setBiti_st (i : BitVec 3) : (s.setBiti i).st = s.st := rfl
@[simp] theorem State.setBiti_reg (i : BitVec 3) : (s.setBiti i).reg = s.reg := rfl
@[simp] theorem State.setBiti_cur (i : BitVec 3) : (s.setBiti i).cur = s.cur := rfl
@[simp] theorem State.setBiti_work (i : BitVec 3) : (s.setBiti i).work = { s.work with biti := i } := rfl
@[simp] theorem State.setBiti_txbuf (i : BitVec 3) : (s.setBiti i).txbuf = s.txbuf := rfl
@[simp] theorem State.setBiti_rxbuf (i : BitVec 3) : (s.setBiti i).rxbuf = s.rxbuf := rfl
@[simp] theorem State.setBiti_wordbuf (i : BitVec 3) : (s.setBiti i).wordbuf = s.wordbuf := rfl
@[simp] theorem State.setBiti_trace (i : BitVec 3) : (s.setBiti i).trace = s.trace := rfl
@[simp] theorem State.setBiti_host (i : BitVec 3) : (s.setBiti i).host = s.host := rfl
@[simp] theorem State.setBiti_env (i : BitVec 3) : (s.setBiti i).env = s.env := rfl
@[simp] theorem State.setBiti_peers (i : BitVec 3) : (s.setBiti i).peers = s.peers := rfl
@[simp] theorem State.setBiti_plat (i : BitVec 3) : (s.setBiti i).plat = s.plat := rfl
@[simp] theorem State.setBiti_fresh (i : BitVec 3) : (s.setBiti i).fresh = s.fresh := rfl

/-! `State.setShift` -/

@[simp] theorem State.setShift_st (v : Byte) : (s.setShift v).st = s.st := rfl
@[simp] theorem State.setShift_reg (v : Byte) : (s.setShift v).reg = s.reg := rfl
@[simp] theorem State.setShift_cur (v : Byte) : (s.setShift v).cur = s.cur := rfl
@[simp] theorem State.setShift_work (v : Byte) : (s.setShift v).work = { s.work with shift := v } := rfl
@[simp] theorem State.setShift_txbuf (v : Byte) : (s.setShift v).txbuf = s.txbuf := rfl
@[simp] theorem State.setShift_rxbuf (v : Byte) : (s.setShift v).rxbuf = s.rxbuf := rfl
@[simp] theorem State.setShift_wordbuf (v : Byte) : (s.setShift v).wordbuf = s.wordbuf := rfl
@[simp] theorem State.setShift_trace (v : Byte) : (s.setShift v).trace = s.trace := rfl
@[simp] theorem State.setShift_host (v : Byte) : (s.setShift v).host = s.host := rfl
@[simp] theorem State.setShift_env (v : Byte) : (s.setShift v).env = s.env := rfl
@[simp] theorem State.setShift_peers (v : Byte) : (s.setShift v).peers = s.peers := rfl
@[simp] theorem State.setShift_plat (v : Byte) : (s.setShift v).plat = s.plat := rfl
@[simp] theorem State.setShift_fresh (v : Byte) : (s.setShift v).fresh = s.fresh := rfl

/-! `State.setRetryLeft` -/

@[simp] theorem State.setRetryLeft_st (v : Byte) : (s.setRetryLeft v).st = s.st := rfl
@[simp] theorem State.setRetryLeft_reg (v : Byte) : (s.setRetryLeft v).reg = s.reg := rfl
@[simp] theorem State.setRetryLeft_cur (v : Byte) : (s.setRetryLeft v).cur = s.cur := rfl
@[simp] theorem State.setRetryLeft_work (v : Byte) : (s.setRetryLeft v).work = { s.work with retryLeft := v } := rfl
@[simp] theorem State.setRetryLeft_txbuf (v : Byte) : (s.setRetryLeft v).txbuf = s.txbuf := rfl
@[simp] theorem State.setRetryLeft_rxbuf (v : Byte) : (s.setRetryLeft v).rxbuf = s.rxbuf := rfl
@[simp] theorem State.setRetryLeft_wordbuf (v : Byte) : (s.setRetryLeft v).wordbuf = s.wordbuf := rfl
@[simp] theorem State.setRetryLeft_trace (v : Byte) : (s.setRetryLeft v).trace = s.trace := rfl
@[simp] theorem State.setRetryLeft_host (v : Byte) : (s.setRetryLeft v).host = s.host := rfl
@[simp] theorem State.setRetryLeft_env (v : Byte) : (s.setRetryLeft v).env = s.env := rfl
@[simp] theorem State.setRetryLeft_peers (v : Byte) : (s.setRetryLeft v).peers = s.peers := rfl
@[simp] theorem State.setRetryLeft_plat (v : Byte) : (s.setRetryLeft v).plat = s.plat := rfl
@[simp] theorem State.setRetryLeft_fresh (v : Byte) : (s.setRetryLeft v).fresh = s.fresh := rfl

/-! `State.setAckBit` -/

@[simp] theorem State.setAckBit_st (b : Bool) : (s.setAckBit b).st = s.st := rfl
@[simp] theorem State.setAckBit_reg (b : Bool) : (s.setAckBit b).reg = s.reg := rfl
@[simp] theorem State.setAckBit_cur (b : Bool) : (s.setAckBit b).cur = s.cur := rfl
@[simp] theorem State.setAckBit_work (b : Bool) : (s.setAckBit b).work = { s.work with ackBit := b } := rfl
@[simp] theorem State.setAckBit_txbuf (b : Bool) : (s.setAckBit b).txbuf = s.txbuf := rfl
@[simp] theorem State.setAckBit_rxbuf (b : Bool) : (s.setAckBit b).rxbuf = s.rxbuf := rfl
@[simp] theorem State.setAckBit_wordbuf (b : Bool) : (s.setAckBit b).wordbuf = s.wordbuf := rfl
@[simp] theorem State.setAckBit_trace (b : Bool) : (s.setAckBit b).trace = s.trace := rfl
@[simp] theorem State.setAckBit_host (b : Bool) : (s.setAckBit b).host = s.host := rfl
@[simp] theorem State.setAckBit_env (b : Bool) : (s.setAckBit b).env = s.env := rfl
@[simp] theorem State.setAckBit_peers (b : Bool) : (s.setAckBit b).peers = s.peers := rfl
@[simp] theorem State.setAckBit_plat (b : Bool) : (s.setAckBit b).plat = s.plat := rfl
@[simp] theorem State.setAckBit_fresh (b : Bool) : (s.setAckBit b).fresh = s.fresh := rfl

/-! `State.setHandler` -/

@[simp] theorem State.setHandler_st (h : Handler) : (s.setHandler h).st = s.st := rfl
@[simp] theorem State.setHandler_reg (h : Handler) : (s.setHandler h).reg = s.reg := rfl
@[simp] theorem State.setHandler_cur (h : Handler) : (s.setHandler h).cur = s.cur := rfl
@[simp] theorem State.setHandler_work (h : Handler) : (s.setHandler h).work = { s.work with handler := h } := rfl
@[simp] theorem State.setHandler_txbuf (h : Handler) : (s.setHandler h).txbuf = s.txbuf := rfl
@[simp] theorem State.setHandler_rxbuf (h : Handler) : (s.setHandler h).rxbuf = s.rxbuf := rfl
@[simp] theorem State.setHandler_wordbuf (h : Handler) : (s.setHandler h).wordbuf = s.wordbuf := rfl
@[simp] theorem State.setHandler_trace (h : Handler) : (s.setHandler h).trace = s.trace := rfl
@[simp] theorem State.setHandler_host (h : Handler) : (s.setHandler h).host = s.host := rfl
@[simp] theorem State.setHandler_env (h : Handler) : (s.setHandler h).env = s.env := rfl
@[simp] theorem State.setHandler_peers (h : Handler) : (s.setHandler h).peers = s.peers := rfl
@[simp] theorem State.setHandler_plat (h : Handler) : (s.setHandler h).plat = s.plat := rfl
@[simp] theorem State.setHandler_fresh (h : Handler) : (s.setHandler h).fresh = s.fresh := rfl

/-! `State.setTasks` -/

@[simp] theorem State.setTasks_st (ts : List Task) : (s.setTasks ts).st = s.st := rfl
@[simp] theorem State.setTasks_reg (ts : List Task) : (s.setTasks ts).reg = s.reg := rfl
@[simp] theorem State.setTasks_cur (ts : List Task) : (s.setTasks ts).cur = s.cur := rfl
@[simp] theorem State.setTasks_work (ts : List Task) : (s.setTasks ts).work = { s.work with tasks := ts } := rfl
@[simp] theorem State.setTasks_txbuf (ts : List Task) : (s.setTasks ts).txbuf = s.txbuf := rfl
@[simp] theorem State.setTasks_rxbuf (ts : List Task) : (s.setTasks ts).rxbuf = s.rxbuf := rfl
@[simp] theorem State.setTasks_wordbuf (ts : List Task) : (s.setTasks ts).wordbuf = s.wordbuf := rfl
@[simp] theorem State.setTasks_trace (ts : List Task) : (s.setTasks ts).trace = s.trace := rfl
@[simp] theorem State.setTasks_host (ts : List Task) : (s.setTasks ts).host = s.host := rfl
@[simp] theorem State.setTasks_env (ts : List Task) : (s.setTasks ts).env = s.env := rfl
@[simp] theorem State.setTasks_peers (ts : List Task) : (s.setTasks ts).peers = s.peers := rfl
@[simp] theorem State.setTasks_plat (ts : List Task) : (s.setTasks ts).plat = s.plat := rfl
@[simp] theorem State.setTasks_fresh (ts : List Task) : (s.setTasks ts).fresh = s.fresh := rfl

/-! `State.setByteIdx` -/

@[simp] theorem State.setByteIdx_st (i : Nat) : (s.setByteIdx i).st = s.st := rfl
@[simp] theorem State.setByteIdx_reg (i : Nat) : (s.setByteIdx i).reg = s.reg := rfl
@[simp] theorem State.setByteIdx_cur (i : Nat) : (s.setByteIdx i).cur = s.cur := rfl
@[simp] theorem State.setByteIdx_work (i : Nat) :
    (s.setByteIdx i).work =
      { s.work with byteIdx := BitVec.ofNat 16 i } := rfl
@[simp] theorem State.setByteIdx_txbuf (i : Nat) : (s.setByteIdx i).txbuf = s.txbuf := rfl
@[simp] theorem State.setByteIdx_rxbuf (i : Nat) : (s.setByteIdx i).rxbuf = s.rxbuf := rfl
@[simp] theorem State.setByteIdx_wordbuf (i : Nat) : (s.setByteIdx i).wordbuf = s.wordbuf := rfl
@[simp] theorem State.setByteIdx_trace (i : Nat) : (s.setByteIdx i).trace = s.trace := rfl
@[simp] theorem State.setByteIdx_host (i : Nat) : (s.setByteIdx i).host = s.host := rfl
@[simp] theorem State.setByteIdx_env (i : Nat) : (s.setByteIdx i).env = s.env := rfl
@[simp] theorem State.setByteIdx_peers (i : Nat) : (s.setByteIdx i).peers = s.peers := rfl
@[simp] theorem State.setByteIdx_plat (i : Nat) : (s.setByteIdx i).plat = s.plat := rfl
@[simp] theorem State.setByteIdx_fresh (i : Nat) : (s.setByteIdx i).fresh = s.fresh := rfl

/-! `State.storeByte` -/

@[simp] theorem State.storeByte_st (i : Nat) : (s.storeByte i).st = s.st := rfl
@[simp] theorem State.storeByte_reg (i : Nat) :
    (s.storeByte i).reg =
      { s.reg with rxCount := BitVec.ofNat 16 (i + 1) } := rfl
@[simp] theorem State.storeByte_cur (i : Nat) : (s.storeByte i).cur = s.cur := rfl
@[simp] theorem State.storeByte_work (i : Nat) : (s.storeByte i).work = s.work := rfl
@[simp] theorem State.storeByte_txbuf (i : Nat) : (s.storeByte i).txbuf = s.txbuf := rfl
@[simp] theorem State.storeByte_rxbuf (i : Nat) : (s.storeByte i).rxbuf = s.rxbuf.set i s.work.shift := rfl
@[simp] theorem State.storeByte_wordbuf (i : Nat) : (s.storeByte i).wordbuf = s.wordbuf := rfl
@[simp] theorem State.storeByte_trace (i : Nat) : (s.storeByte i).trace = s.trace := rfl
@[simp] theorem State.storeByte_host (i : Nat) : (s.storeByte i).host = s.host := rfl
@[simp] theorem State.storeByte_env (i : Nat) : (s.storeByte i).env = s.env := rfl
@[simp] theorem State.storeByte_peers (i : Nat) : (s.storeByte i).peers = s.peers := rfl
@[simp] theorem State.storeByte_plat (i : Nat) : (s.storeByte i).plat = s.plat := rfl
@[simp] theorem State.storeByte_fresh (i : Nat) : (s.storeByte i).fresh = s.fresh := rfl

/-! `State.setInitialized` -/

@[simp] theorem State.setInitialized_st (b : Bool) : (s.setInitialized b).st = { s.st with initialized := b } := rfl
@[simp] theorem State.setInitialized_reg (b : Bool) : (s.setInitialized b).reg = s.reg := rfl
@[simp] theorem State.setInitialized_cur (b : Bool) : (s.setInitialized b).cur = s.cur := rfl
@[simp] theorem State.setInitialized_work (b : Bool) : (s.setInitialized b).work = s.work := rfl
@[simp] theorem State.setInitialized_txbuf (b : Bool) : (s.setInitialized b).txbuf = s.txbuf := rfl
@[simp] theorem State.setInitialized_rxbuf (b : Bool) : (s.setInitialized b).rxbuf = s.rxbuf := rfl
@[simp] theorem State.setInitialized_wordbuf (b : Bool) : (s.setInitialized b).wordbuf = s.wordbuf := rfl
@[simp] theorem State.setInitialized_trace (b : Bool) : (s.setInitialized b).trace = s.trace := rfl
@[simp] theorem State.setInitialized_host (b : Bool) : (s.setInitialized b).host = s.host := rfl
@[simp] theorem State.setInitialized_env (b : Bool) : (s.setInitialized b).env = s.env := rfl
@[simp] theorem State.setInitialized_peers (b : Bool) : (s.setInitialized b).peers = s.peers := rfl
@[simp] theorem State.setInitialized_plat (b : Bool) : (s.setInitialized b).plat = s.plat := rfl
@[simp] theorem State.setInitialized_fresh (b : Bool) : (s.setInitialized b).fresh = s.fresh := rfl

/-! `State.setConfigured` -/

@[simp] theorem State.setConfigured_st (b : Bool) : (s.setConfigured b).st = { s.st with configured := b } := rfl
@[simp] theorem State.setConfigured_reg (b : Bool) : (s.setConfigured b).reg = s.reg := rfl
@[simp] theorem State.setConfigured_cur (b : Bool) : (s.setConfigured b).cur = s.cur := rfl
@[simp] theorem State.setConfigured_work (b : Bool) : (s.setConfigured b).work = s.work := rfl
@[simp] theorem State.setConfigured_txbuf (b : Bool) : (s.setConfigured b).txbuf = s.txbuf := rfl
@[simp] theorem State.setConfigured_rxbuf (b : Bool) : (s.setConfigured b).rxbuf = s.rxbuf := rfl
@[simp] theorem State.setConfigured_wordbuf (b : Bool) : (s.setConfigured b).wordbuf = s.wordbuf := rfl
@[simp] theorem State.setConfigured_trace (b : Bool) : (s.setConfigured b).trace = s.trace := rfl
@[simp] theorem State.setConfigured_host (b : Bool) : (s.setConfigured b).host = s.host := rfl
@[simp] theorem State.setConfigured_env (b : Bool) : (s.setConfigured b).env = s.env := rfl
@[simp] theorem State.setConfigured_peers (b : Bool) : (s.setConfigured b).peers = s.peers := rfl
@[simp] theorem State.setConfigured_plat (b : Bool) : (s.setConfigured b).plat = s.plat := rfl
@[simp] theorem State.setConfigured_fresh (b : Bool) : (s.setConfigured b).fresh = s.fresh := rfl

/-! `State.latch` -/

@[simp] theorem State.latch_st : s.latch.st = s.st := rfl
@[simp] theorem State.latch_reg :
    s.latch.reg =
      { s.reg with halfPeriod := halfOf s.reg.cfgPeriod, stretchRetries := retriesOf s.reg.cfgPeriod } := rfl
@[simp] theorem State.latch_cur :
    s.latch.cur =
      { sclPin := s.reg.cfgSclPin, sdaPin := s.reg.cfgSdaPin, period := s.reg.cfgPeriod, half := halfOf s.reg.cfgPeriod, retries := retriesOf s.reg.cfgPeriod } := rfl
@[simp] theorem State.latch_work : s.latch.work = s.work := rfl
@[simp] theorem State.latch_txbuf : s.latch.txbuf = s.txbuf := rfl
@[simp] theorem State.latch_rxbuf : s.latch.rxbuf = s.rxbuf := rfl
@[simp] theorem State.latch_wordbuf : s.latch.wordbuf = s.wordbuf := rfl
@[simp] theorem State.latch_trace : s.latch.trace = s.trace := rfl
@[simp] theorem State.latch_host : s.latch.host = s.host := rfl
@[simp] theorem State.latch_env : s.latch.env = s.env := rfl
@[simp] theorem State.latch_peers : s.latch.peers = s.peers := rfl
@[simp] theorem State.latch_plat : s.latch.plat = s.plat := rfl
@[simp] theorem State.latch_fresh : s.latch.fresh = s.fresh := rfl

/-! `State.clearRxCount` -/

@[simp] theorem State.clearRxCount_st : s.clearRxCount.st = s.st := rfl
@[simp] theorem State.clearRxCount_reg : s.clearRxCount.reg = { s.reg with rxCount := 0 } := rfl
@[simp] theorem State.clearRxCount_cur : s.clearRxCount.cur = s.cur := rfl
@[simp] theorem State.clearRxCount_work : s.clearRxCount.work = s.work := rfl
@[simp] theorem State.clearRxCount_txbuf : s.clearRxCount.txbuf = s.txbuf := rfl
@[simp] theorem State.clearRxCount_rxbuf : s.clearRxCount.rxbuf = s.rxbuf := rfl
@[simp] theorem State.clearRxCount_wordbuf : s.clearRxCount.wordbuf = s.wordbuf := rfl
@[simp] theorem State.clearRxCount_trace : s.clearRxCount.trace = s.trace := rfl
@[simp] theorem State.clearRxCount_host : s.clearRxCount.host = s.host := rfl
@[simp] theorem State.clearRxCount_env : s.clearRxCount.env = s.env := rfl
@[simp] theorem State.clearRxCount_peers : s.clearRxCount.peers = s.peers := rfl
@[simp] theorem State.clearRxCount_plat : s.clearRxCount.plat = s.plat := rfl
@[simp] theorem State.clearRxCount_fresh : s.clearRxCount.fresh = s.fresh := rfl

/-! `State.setResult` -/

@[simp] theorem State.setResult_st (v : Half) : (s.setResult v).st = s.st := rfl
@[simp] theorem State.setResult_reg (v : Half) : (s.setResult v).reg = { s.reg with result := v } := rfl
@[simp] theorem State.setResult_cur (v : Half) : (s.setResult v).cur = s.cur := rfl
@[simp] theorem State.setResult_work (v : Half) : (s.setResult v).work = s.work := rfl
@[simp] theorem State.setResult_txbuf (v : Half) : (s.setResult v).txbuf = s.txbuf := rfl
@[simp] theorem State.setResult_rxbuf (v : Half) : (s.setResult v).rxbuf = s.rxbuf := rfl
@[simp] theorem State.setResult_wordbuf (v : Half) : (s.setResult v).wordbuf = s.wordbuf := rfl
@[simp] theorem State.setResult_trace (v : Half) : (s.setResult v).trace = s.trace := rfl
@[simp] theorem State.setResult_host (v : Half) : (s.setResult v).host = s.host := rfl
@[simp] theorem State.setResult_env (v : Half) : (s.setResult v).env = s.env := rfl
@[simp] theorem State.setResult_peers (v : Half) : (s.setResult v).peers = s.peers := rfl
@[simp] theorem State.setResult_plat (v : Half) : (s.setResult v).plat = s.plat := rfl
@[simp] theorem State.setResult_fresh (v : Half) : (s.setResult v).fresh = s.fresh := rfl

/-! `State.putTx` -/

@[simp] theorem State.putTx_st (bs : List Byte) : (s.putTx bs).st = s.st := rfl
@[simp] theorem State.putTx_reg (bs : List Byte) : (s.putTx bs).reg = s.reg := rfl
@[simp] theorem State.putTx_cur (bs : List Byte) : (s.putTx bs).cur = s.cur := rfl
@[simp] theorem State.putTx_work (bs : List Byte) : (s.putTx bs).work = s.work := rfl
@[simp] theorem State.putTx_txbuf (bs : List Byte) : (s.putTx bs).txbuf = s.txbuf.writeFrom 0 bs := rfl
@[simp] theorem State.putTx_rxbuf (bs : List Byte) : (s.putTx bs).rxbuf = s.rxbuf := rfl
@[simp] theorem State.putTx_wordbuf (bs : List Byte) : (s.putTx bs).wordbuf = s.wordbuf := rfl
@[simp] theorem State.putTx_trace (bs : List Byte) : (s.putTx bs).trace = s.trace := rfl
@[simp] theorem State.putTx_host (bs : List Byte) : (s.putTx bs).host = s.host := rfl
@[simp] theorem State.putTx_env (bs : List Byte) : (s.putTx bs).env = s.env := rfl
@[simp] theorem State.putTx_peers (bs : List Byte) : (s.putTx bs).peers = s.peers := rfl
@[simp] theorem State.putTx_plat (bs : List Byte) : (s.putTx bs).plat = s.plat := rfl
@[simp] theorem State.putTx_fresh (bs : List Byte) : (s.putTx bs).fresh = s.fresh := rfl

/-! `State.putWords` -/

@[simp] theorem State.putWords_st (ws : List Half) : (s.putWords ws).st = s.st := rfl
@[simp] theorem State.putWords_reg (ws : List Half) : (s.putWords ws).reg = s.reg := rfl
@[simp] theorem State.putWords_cur (ws : List Half) : (s.putWords ws).cur = s.cur := rfl
@[simp] theorem State.putWords_work (ws : List Half) : (s.putWords ws).work = s.work := rfl
@[simp] theorem State.putWords_txbuf (ws : List Half) : (s.putWords ws).txbuf = s.txbuf := rfl
@[simp] theorem State.putWords_rxbuf (ws : List Half) : (s.putWords ws).rxbuf = s.rxbuf := rfl
@[simp] theorem State.putWords_wordbuf (ws : List Half) : (s.putWords ws).wordbuf = s.wordbuf.writeFrom 0 ws := rfl
@[simp] theorem State.putWords_trace (ws : List Half) : (s.putWords ws).trace = s.trace := rfl
@[simp] theorem State.putWords_host (ws : List Half) : (s.putWords ws).host = s.host := rfl
@[simp] theorem State.putWords_env (ws : List Half) : (s.putWords ws).env = s.env := rfl
@[simp] theorem State.putWords_peers (ws : List Half) : (s.putWords ws).peers = s.peers := rfl
@[simp] theorem State.putWords_plat (ws : List Half) : (s.putWords ws).plat = s.plat := rfl
@[simp] theorem State.putWords_fresh (ws : List Half) : (s.putWords ws).fresh = s.fresh := rfl

/-! `State.setVar` -/

@[simp] theorem State.setVar_st (t : Nat) (v : Word) : (s.setVar t v).st = s.st := rfl
@[simp] theorem State.setVar_reg (t : Nat) (v : Word) : (s.setVar t v).reg = s.reg := rfl
@[simp] theorem State.setVar_cur (t : Nat) (v : Word) : (s.setVar t v).cur = s.cur := rfl
@[simp] theorem State.setVar_work (t : Nat) (v : Word) : (s.setVar t v).work = s.work := rfl
@[simp] theorem State.setVar_txbuf (t : Nat) (v : Word) : (s.setVar t v).txbuf = s.txbuf := rfl
@[simp] theorem State.setVar_rxbuf (t : Nat) (v : Word) : (s.setVar t v).rxbuf = s.rxbuf := rfl
@[simp] theorem State.setVar_wordbuf (t : Nat) (v : Word) : (s.setVar t v).wordbuf = s.wordbuf := rfl
@[simp] theorem State.setVar_trace (t : Nat) (v : Word) : (s.setVar t v).trace = s.trace := rfl
@[simp] theorem State.setVar_host (t : Nat) (v : Word) :
    (s.setVar t v).host =
      { s.host with vars := s.host.vars.set t v } := rfl
@[simp] theorem State.setVar_env (t : Nat) (v : Word) : (s.setVar t v).env = s.env := rfl
@[simp] theorem State.setVar_peers (t : Nat) (v : Word) : (s.setVar t v).peers = s.peers := rfl
@[simp] theorem State.setVar_plat (t : Nat) (v : Word) : (s.setVar t v).plat = s.plat := rfl
@[simp] theorem State.setVar_fresh (t : Nat) (v : Word) : (s.setVar t v).fresh = s.fresh := rfl

/-! `State.jump` -/

@[simp] theorem State.jump_st (k : Nat) : (s.jump k).st = s.st := rfl
@[simp] theorem State.jump_reg (k : Nat) : (s.jump k).reg = s.reg := rfl
@[simp] theorem State.jump_cur (k : Nat) : (s.jump k).cur = s.cur := rfl
@[simp] theorem State.jump_work (k : Nat) : (s.jump k).work = s.work := rfl
@[simp] theorem State.jump_txbuf (k : Nat) : (s.jump k).txbuf = s.txbuf := rfl
@[simp] theorem State.jump_rxbuf (k : Nat) : (s.jump k).rxbuf = s.rxbuf := rfl
@[simp] theorem State.jump_wordbuf (k : Nat) : (s.jump k).wordbuf = s.wordbuf := rfl
@[simp] theorem State.jump_trace (k : Nat) : (s.jump k).trace = s.trace := rfl
@[simp] theorem State.jump_host (k : Nat) : (s.jump k).host = { s.host with pc := k } := rfl
@[simp] theorem State.jump_env (k : Nat) : (s.jump k).env = s.env := rfl
@[simp] theorem State.jump_peers (k : Nat) : (s.jump k).peers = s.peers := rfl
@[simp] theorem State.jump_plat (k : Nat) : (s.jump k).plat = s.plat := rfl
@[simp] theorem State.jump_fresh (k : Nat) : (s.jump k).fresh = s.fresh := rfl

/-! `State.nextStmt` -/

@[simp] theorem State.nextStmt_st : s.nextStmt.st = s.st := rfl
@[simp] theorem State.nextStmt_reg : s.nextStmt.reg = s.reg := rfl
@[simp] theorem State.nextStmt_cur : s.nextStmt.cur = s.cur := rfl
@[simp] theorem State.nextStmt_work : s.nextStmt.work = s.work := rfl
@[simp] theorem State.nextStmt_txbuf : s.nextStmt.txbuf = s.txbuf := rfl
@[simp] theorem State.nextStmt_rxbuf : s.nextStmt.rxbuf = s.rxbuf := rfl
@[simp] theorem State.nextStmt_wordbuf : s.nextStmt.wordbuf = s.wordbuf := rfl
@[simp] theorem State.nextStmt_trace : s.nextStmt.trace = s.trace := rfl
@[simp] theorem State.nextStmt_host : s.nextStmt.host = { s.host with pc := s.host.pc + 1 } := rfl
@[simp] theorem State.nextStmt_env : s.nextStmt.env = s.env := rfl
@[simp] theorem State.nextStmt_peers : s.nextStmt.peers = s.peers := rfl
@[simp] theorem State.nextStmt_plat : s.nextStmt.plat = s.plat := rfl
@[simp] theorem State.nextStmt_fresh : s.nextStmt.fresh = s.fresh := rfl

/-! `State.stopHost` -/

@[simp] theorem State.stopHost_st : s.stopHost.st = s.st := rfl
@[simp] theorem State.stopHost_reg : s.stopHost.reg = s.reg := rfl
@[simp] theorem State.stopHost_cur : s.stopHost.cur = s.cur := rfl
@[simp] theorem State.stopHost_work : s.stopHost.work = s.work := rfl
@[simp] theorem State.stopHost_txbuf : s.stopHost.txbuf = s.txbuf := rfl
@[simp] theorem State.stopHost_rxbuf : s.stopHost.rxbuf = s.rxbuf := rfl
@[simp] theorem State.stopHost_wordbuf : s.stopHost.wordbuf = s.wordbuf := rfl
@[simp] theorem State.stopHost_trace : s.stopHost.trace = s.trace := rfl
@[simp] theorem State.stopHost_host : s.stopHost.host = { s.host with halted := true } := rfl
@[simp] theorem State.stopHost_env : s.stopHost.env = s.env := rfl
@[simp] theorem State.stopHost_peers : s.stopHost.peers = s.peers := rfl
@[simp] theorem State.stopHost_plat : s.stopHost.plat = s.plat := rfl
@[simp] theorem State.stopHost_fresh : s.stopHost.fresh = s.fresh := rfl

/-! `State.peerRelease` -/

@[simp] theorem State.peerRelease_st (k : Nat) : (s.peerRelease k).st = s.st := rfl
@[simp] theorem State.peerRelease_reg (k : Nat) : (s.peerRelease k).reg = s.reg := rfl
@[simp] theorem State.peerRelease_cur (k : Nat) : (s.peerRelease k).cur = s.cur := rfl
@[simp] theorem State.peerRelease_work (k : Nat) : (s.peerRelease k).work = s.work := rfl
@[simp] theorem State.peerRelease_txbuf (k : Nat) : (s.peerRelease k).txbuf = s.txbuf := rfl
@[simp] theorem State.peerRelease_rxbuf (k : Nat) : (s.peerRelease k).rxbuf = s.rxbuf := rfl
@[simp] theorem State.peerRelease_wordbuf (k : Nat) : (s.peerRelease k).wordbuf = s.wordbuf := rfl
@[simp] theorem State.peerRelease_trace (k : Nat) : (s.peerRelease k).trace = s.trace := rfl
@[simp] theorem State.peerRelease_host (k : Nat) : (s.peerRelease k).host = s.host := rfl
@[simp] theorem State.peerRelease_env (k : Nat) : (s.peerRelease k).env = s.env := rfl
@[simp] theorem State.peerRelease_peers (k : Nat) : (s.peerRelease k).peers = s.peers.filter fun q => q.id != k := rfl
@[simp] theorem State.peerRelease_plat (k : Nat) : (s.peerRelease k).plat = s.plat := rfl
@[simp] theorem State.peerRelease_fresh (k : Nat) : (s.peerRelease k).fresh = s.fresh := rfl

/-! `State.addPeer` -/

@[simp] theorem State.addPeer_st (p : Peer) : (s.addPeer p).st = s.st := rfl
@[simp] theorem State.addPeer_reg (p : Peer) : (s.addPeer p).reg = s.reg := rfl
@[simp] theorem State.addPeer_cur (p : Peer) : (s.addPeer p).cur = s.cur := rfl
@[simp] theorem State.addPeer_work (p : Peer) : (s.addPeer p).work = s.work := rfl
@[simp] theorem State.addPeer_txbuf (p : Peer) : (s.addPeer p).txbuf = s.txbuf := rfl
@[simp] theorem State.addPeer_rxbuf (p : Peer) : (s.addPeer p).rxbuf = s.rxbuf := rfl
@[simp] theorem State.addPeer_wordbuf (p : Peer) : (s.addPeer p).wordbuf = s.wordbuf := rfl
@[simp] theorem State.addPeer_trace (p : Peer) : (s.addPeer p).trace = s.trace := rfl
@[simp] theorem State.addPeer_host (p : Peer) : (s.addPeer p).host = s.host := rfl
@[simp] theorem State.addPeer_env (p : Peer) : (s.addPeer p).env = s.env := rfl
@[simp] theorem State.addPeer_peers (p : Peer) :
    (s.addPeer p).peers =
      if s.peers.any (fun q => q.id == p.id) then s.peers else p :: s.peers := rfl
@[simp] theorem State.addPeer_plat (p : Peer) : (s.addPeer p).plat = s.plat := rfl
@[simp] theorem State.addPeer_fresh (p : Peer) : (s.addPeer p).fresh = s.fresh := rfl

/-! `State.resetBlock` -/

@[simp] theorem State.resetBlock_st : s.resetBlock.st = Status.reset := rfl
@[simp] theorem State.resetBlock_reg : s.resetBlock.reg = Regs.reset := rfl
@[simp] theorem State.resetBlock_cur : s.resetBlock.cur = Latched.reset := rfl
@[simp] theorem State.resetBlock_work : s.resetBlock.work = Work.reset := rfl
@[simp] theorem State.resetBlock_txbuf : s.resetBlock.txbuf = [] := rfl
@[simp] theorem State.resetBlock_rxbuf : s.resetBlock.rxbuf = [] := rfl
@[simp] theorem State.resetBlock_wordbuf : s.resetBlock.wordbuf = [] := rfl
@[simp] theorem State.resetBlock_trace : s.resetBlock.trace = [] := rfl
@[simp] theorem State.resetBlock_host : s.resetBlock.host = s.host := rfl
@[simp] theorem State.resetBlock_env : s.resetBlock.env = s.env := rfl
@[simp] theorem State.resetBlock_peers : s.resetBlock.peers = s.peers := rfl
@[simp] theorem State.resetBlock_plat : s.resetBlock.plat = s.plat := rfl
@[simp] theorem State.resetBlock_fresh : s.resetBlock.fresh = s.fresh := rfl

/-! `State.setLine`: only the line-state variable of the line changes (R25). -/

@[simp] theorem State.setLine_reg (l : Line) (v : LineState) : (s.setLine l v).reg = s.reg := by
  cases l <;> rfl
@[simp] theorem State.setLine_cur (l : Line) (v : LineState) : (s.setLine l v).cur = s.cur := by
  cases l <;> rfl
@[simp] theorem State.setLine_work (l : Line) (v : LineState) : (s.setLine l v).work = s.work := by
  cases l <;> rfl
@[simp] theorem State.setLine_txbuf (l : Line) (v : LineState) : (s.setLine l v).txbuf = s.txbuf := by
  cases l <;> rfl
@[simp] theorem State.setLine_rxbuf (l : Line) (v : LineState) : (s.setLine l v).rxbuf = s.rxbuf := by
  cases l <;> rfl
@[simp] theorem State.setLine_wordbuf (l : Line) (v : LineState) : (s.setLine l v).wordbuf = s.wordbuf := by
  cases l <;> rfl
@[simp] theorem State.setLine_trace (l : Line) (v : LineState) : (s.setLine l v).trace = s.trace := by
  cases l <;> rfl
@[simp] theorem State.setLine_host (l : Line) (v : LineState) : (s.setLine l v).host = s.host := by
  cases l <;> rfl
@[simp] theorem State.setLine_env (l : Line) (v : LineState) : (s.setLine l v).env = s.env := by
  cases l <;> rfl
@[simp] theorem State.setLine_peers (l : Line) (v : LineState) : (s.setLine l v).peers = s.peers := by
  cases l <;> rfl
@[simp] theorem State.setLine_plat (l : Line) (v : LineState) : (s.setLine l v).plat = s.plat := by
  cases l <;> rfl
@[simp] theorem State.setLine_fresh (l : Line) (v : LineState) : (s.setLine l v).fresh = s.fresh := by
  cases l <;> rfl

@[simp] theorem State.setLine_scl_st (v : LineState) : (s.setLine .scl v).st = { s.st with scl := v } := rfl
@[simp] theorem State.setLine_sda_st (v : LineState) : (s.setLine .sda v).st = { s.st with sda := v } := rfl

@[simp] theorem State.setLine_st_busy (l : Line) (v : LineState) : (s.setLine l v).st.busy = s.st.busy := by
  cases l <;> rfl
@[simp] theorem State.setLine_st_configured (l : Line) (v : LineState) : (s.setLine l v).st.configured = s.st.configured := by
  cases l <;> rfl
@[simp] theorem State.setLine_st_initialized (l : Line) (v : LineState) : (s.setLine l v).st.initialized = s.st.initialized := by
  cases l <;> rfl
@[simp] theorem State.setLine_st_stopFail (l : Line) (v : LineState) : (s.setLine l v).st.stopFail = s.st.stopFail := by
  cases l <;> rfl
@[simp] theorem State.setLine_st_errCode (l : Line) (v : LineState) : (s.setLine l v).st.errCode = s.st.errCode := by
  cases l <;> rfl
@[simp] theorem State.setLine_st_errPhase (l : Line) (v : LineState) : (s.setLine l v).st.errPhase = s.st.errPhase := by
  cases l <;> rfl
@[simp] theorem State.setLine_st_errDir (l : Line) (v : LineState) : (s.setLine l v).st.errDir = s.st.errDir := by
  cases l <;> rfl
@[simp] theorem State.setLine_st_stretchWait (l : Line) (v : LineState) : (s.setLine l v).st.stretchWait = s.st.stretchWait := by
  cases l <;> rfl
@[simp] theorem State.setLine_st_fsm (l : Line) (v : LineState) : (s.setLine l v).st.fsm = s.st.fsm := by
  cases l <;> rfl

/-- The line-state variables after one of them is set. -/
theorem State.lineOf_setLine (l l' : Line) (v : LineState) :
    (s.setLine l v).lineOf l' = if l = l' then v else s.lineOf l' := by
  cases l <;> cases l' <;> rfl

/-! `State.putElement`: only the buffer named changes (R61). -/

@[simp] theorem State.putElement_st (b : Buf) (i : Nat) (v : Word) : (s.putElement b i v).st = s.st := by
  cases b <;> rfl
@[simp] theorem State.putElement_reg (b : Buf) (i : Nat) (v : Word) : (s.putElement b i v).reg = s.reg := by
  cases b <;> rfl
@[simp] theorem State.putElement_cur (b : Buf) (i : Nat) (v : Word) : (s.putElement b i v).cur = s.cur := by
  cases b <;> rfl
@[simp] theorem State.putElement_work (b : Buf) (i : Nat) (v : Word) : (s.putElement b i v).work = s.work := by
  cases b <;> rfl
@[simp] theorem State.putElement_trace (b : Buf) (i : Nat) (v : Word) : (s.putElement b i v).trace = s.trace := by
  cases b <;> rfl
@[simp] theorem State.putElement_host (b : Buf) (i : Nat) (v : Word) : (s.putElement b i v).host = s.host := by
  cases b <;> rfl
@[simp] theorem State.putElement_env (b : Buf) (i : Nat) (v : Word) : (s.putElement b i v).env = s.env := by
  cases b <;> rfl
@[simp] theorem State.putElement_peers (b : Buf) (i : Nat) (v : Word) : (s.putElement b i v).peers = s.peers := by
  cases b <;> rfl
@[simp] theorem State.putElement_plat (b : Buf) (i : Nat) (v : Word) : (s.putElement b i v).plat = s.plat := by
  cases b <;> rfl
@[simp] theorem State.putElement_fresh (b : Buf) (i : Nat) (v : Word) : (s.putElement b i v).fresh = s.fresh := by
  cases b <;> rfl

end Sys2Proof.Machine
end

