-- ==== Sys2Proof/Laws/Memory.lean ====
section
/-! SUPPORT. Buffer elements: read after write, and every memory operation keeps the canonical form. -/

namespace Sys2Proof.Machine

variable {w : Nat}

@[simp] theorem Memory.get?_nil (i : Nat) : Memory.get? ([] : Memory w) i = none := rfl

/-- Read after write: the element written, and no other one, changes. -/
theorem Memory.get?_set (m : Memory w) (i j : Nat) (v : BitVec w) :
    (m.set i v).get? j = if j = i then some v else m.get? j := by
  induction m with
  | nil => simp [Memory.set, Memory.get?]
  | cons e m ih =>
    obtain ⟨k, u⟩ := e
    simp only [Memory.set]
    split_ifs <;> simp_all [Memory.get?]

/-- A written element reads as written (R61). -/
@[simp] theorem Memory.get?_set_self (m : Memory w) (i : Nat) (v : BitVec w) : (m.set i v).get? i = some v := by
  simp [Memory.get?_set]

/-- The entries after a write: the written one and old ones. -/
theorem Memory.mem_set {m : Memory w} {i : Nat} {v : BitVec w} {e : Nat × BitVec w} (h : e ∈ m.set i v) :
    e = (i, v) ∨ e ∈ m := by
  induction m with
  | nil => simpa [Memory.set] using h
  | cons x m ih =>
    obtain ⟨k, u⟩ := x
    simp only [Memory.set] at h
    split_ifs at h <;> simp at h ⊢ <;> tauto

/-- A write keeps the canonical form. -/
theorem Memory.set_wf {m : Memory w} (h : m.wf) (i : Nat) (v : BitVec w) : (m.set i v).wf := by
  induction m with
  | nil => simp [Memory.set, Memory.wf]
  | cons x m ih =>
    obtain ⟨k, u⟩ := x
    have hk : ∀ e ∈ m, k < e.1 := (List.pairwise_cons.1 h).1
    have hm : Memory.wf m := (List.pairwise_cons.1 h).2
    simp only [Memory.set]
    split_ifs with h1 h2
    · refine List.pairwise_cons.2 ⟨fun e he => ?_, h⟩
      rcases List.mem_cons.1 he with rfl | he
      · exact h1
      · exact h1.trans (hk e he)
    · subst h2
      exact List.pairwise_cons.2 ⟨hk, hm⟩
    · refine List.pairwise_cons.2 ⟨fun e he => ?_, ih hm⟩
      rcases Memory.mem_set he with rfl | he
      · simp; omega
      · exact hk e he

/-- Writing a list of elements keeps the canonical form. -/
theorem Memory.writeFrom_wf {m : Memory w} (h : m.wf) (i : Nat) (vs : List (BitVec w)) : (m.writeFrom i vs).wf := by
  induction vs generalizing m i with
  | nil => exact h
  | cons v vs ih => exact ih (Memory.set_wf h i v) (i + 1)

/-- The entries after writing a list from index i on: old ones, and ones inside the written range. -/
theorem Memory.mem_writeFrom {m : Memory w} {i : Nat} {vs : List (BitVec w)} {e : Nat × BitVec w}
    (h : e ∈ m.writeFrom i vs) : e ∈ m ∨ (i ≤ e.1 ∧ e.1 < i + vs.length) := by
  induction vs generalizing m i with
  | nil => exact .inl h
  | cons v vs ih =>
    rcases ih h with h | ⟨h1, h2⟩
    · rcases Memory.mem_set h with rfl | h
      · exact .inr ⟨le_refl _, by simp⟩
      · exact .inl h
    · exact .inr ⟨by omega, by simp; omega⟩

/-- The elements after writing a list from index i on. -/
theorem Memory.get?_writeFrom (m : Memory w) (i : Nat) (vs : List (BitVec w)) (j : Nat) :
    (m.writeFrom i vs).get? j = if i ≤ j ∧ j < i + vs.length then vs[j - i]? else m.get? j := by
  induction vs generalizing m i with
  | nil => simp [Memory.writeFrom]
  | cons v vs ih =>
    rw [Memory.writeFrom, ih, Memory.get?_set]
    by_cases h : j = i
    · subst h; simp
    · by_cases h2 : i + 1 ≤ j ∧ j < i + 1 + vs.length
      · have h3 : i ≤ j ∧ j < i + (v :: vs).length := by simp; omega
        rw [if_pos h2, if_pos h3, show j - i = (j - (i + 1)) + 1 by omega]
        simp
      · have h3 : ¬ (i ≤ j ∧ j < i + (v :: vs).length) := by simp; omega
        rw [if_neg h2, if_neg h3, if_neg h]

/-- A list that was read has the length asked for. -/
theorem Memory.readFrom_length {m : Memory w} {k i : Nat} {vs : List (BitVec w)} (h : m.readFrom k i = .ok vs) :
    vs.length = k := by
  induction k generalizing i vs with
  | zero => simp [Memory.readFrom] at h; simp [← h]
  | succ k ih =>
    simp only [Memory.readFrom] at h
    split at h
    · cases h
    · split at h
      · next hr => cases h; simp [ih hr]
      · cases h

/-- A list that was read holds the elements in index order. -/
theorem Memory.readFrom_get? {m : Memory w} {k i : Nat} {vs : List (BitVec w)} (h : m.readFrom k i = .ok vs)
    (j : Nat) (hj : j < k) : m.get? (i + j) = vs[j]? := by
  induction k generalizing i vs j with
  | zero => omega
  | succ k ih =>
    simp only [Memory.readFrom] at h
    split at h
    · cases h
    · next v hv =>
      split at h
      · next ws hr =>
        cases h
        cases j with
        | zero => simpa using hv
        | succ j => simpa [Nat.add_comm, Nat.add_left_comm] using ih hr j (by omega)
      · cases h

/-- A read that fails names an element that nothing has written (R66). -/
theorem Memory.readFrom_error {m : Memory w} {k i j : Nat} (h : m.readFrom k i = .error j) :
    m.get? j = none ∧ i ≤ j ∧ j < i + k := by
  induction k generalizing i with
  | zero => cases h
  | succ k ih =>
    simp only [Memory.readFrom] at h
    split at h
    · next hn => cases h; exact ⟨hn, le_refl _, by omega⟩
    · split at h
      · cases h
      · next hr =>
        cases h
        obtain ⟨h1, h2, h3⟩ := ih hr
        exact ⟨h1, by omega, by omega⟩

/-- Elements that are all written can be read. -/
theorem Memory.readFrom_ok {m : Memory w} {k i : Nat} (h : ∀ j, i ≤ j → j < i + k → (m.get? j).isSome) :
    ∃ vs, m.readFrom k i = .ok vs := by
  cases hr : m.readFrom k i with
  | ok vs => exact ⟨vs, rfl⟩
  | error j =>
    obtain ⟨h1, h2, h3⟩ := Memory.readFrom_error hr
    simpa [h1] using h j h2 h3

end Sys2Proof.Machine
end

