-- ==== Sys2Proof/Laws/Ops.lean ====
section
/-! SUPPORT. One lemma per shared operation, saying once everything it can do. -/

namespace Sys2Proof.Machine

/-- A draw changes nothing but the inputs still to come and the counter of free values (R26). -/
theorem State.draw_frame (s : State) (l : Line) :
    ∃ env fresh, (s.draw l).2 = { s with env := env, fresh := fresh } := by
  cases l <;> simp only [State.draw] <;> split <;> exact ⟨_, _, rfl⟩

/-- Reading a level changes nothing but the inputs still to come and the counter of free values (R26). -/
theorem State.level_frame (s : State) (l : Line) :
    ∃ env fresh, (s.level l).2 = { s with env := env, fresh := fresh } := by
  unfold State.level
  split
  · exact ⟨s.env, s.fresh, rfl⟩
  · exact s.draw_frame l

/-- A line the block drives low reads 0, and no draw is taken (R26). -/
theorem State.level_driven {s : State} {l : Line} (h : s.lineOf l = .drivenLow) : s.level l = (false, s) := by
  rw [State.level, h]

/-- The level of any other line is a draw (R26). -/
theorem State.level_drawn {s : State} {l : Line} (h : s.lineOf l ≠ .drivenLow) : s.level l = s.draw l := by
  rw [State.level]
  split
  · contradiction
  · rfl

/-- `pin_pullup`: on an accepted pin the line is RELEASED and PU traced, else InvalidPin (R101). -/
theorem State.pinPullup_cases (s : State) (l : Line) :
    (s.pinOk l = true ∧ s.pinPullup l = .ok ((s.setLine l .released).act (.pu l))) ∨
    (s.pinOk l = false ∧ s.pinPullup l = .error .invalidPin) := by
  cases h : s.pinOk l <;> simp [State.pinPullup, h]

/-- `pin_low`: on an accepted pin the line is DRIVEN_LOW and LO traced, else InvalidPin (R102). -/
theorem State.pinLow_cases (s : State) (l : Line) :
    (s.pinOk l = true ∧ s.pinLow l = .ok ((s.setLine l .drivenLow).act (.lo l))) ∨
    (s.pinOk l = false ∧ s.pinLow l = .error .invalidPin) := by
  cases h : s.pinOk l <;> simp [State.pinLow, h]

/-- `pin_read`: on an accepted pin the level is answered and traced, and only the inputs and the counter of free values
change besides; else InvalidPin (R103). -/
theorem State.pinRead_cases (s : State) (l : Line) :
    (s.pinOk l = true ∧ ∃ env fresh,
      s.pinRead l = .ok ((s.level l).1, ({ s with env := env, fresh := fresh } : State).act (.rd l (s.level l).1))) ∨
    (s.pinOk l = false ∧ s.pinRead l = .error .invalidPin) := by
  cases h : s.pinOk l
  · exact .inr ⟨rfl, by simp [State.pinRead, h]⟩
  · obtain ⟨env, fresh, he⟩ := s.level_frame l
    exact .inl ⟨rfl, env, fresh, by simp [State.pinRead, h, he]⟩

/-- Raising an error changes the position and, under the cleanup STOP's clause, STOP_FAIL (R13, R205, R206). -/
theorem State.raise_cases (s : State) (e : ErrCode) :
    ((s.work.handler = .none ∨ s.work.handler = .report) ∧ s.raise e = s.goTo [.finish e .none .write] .none) ∨
    (∃ ph dir, s.work.handler = .cleanup ph dir ∧
      s.raise e = s.goTo (stop ++ [.finish e ph dir]) (.cleaning e ph dir)) ∨
    (∃ dir, s.work.handler = .stopping dir ∧ s.raise e = s.goTo [.finish e .stop dir] .none) ∨
    (∃ e0 ph dir, s.work.handler = .cleaning e0 ph dir ∧
      s.raise e = s.setStopFail.goTo [.finish e0 ph dir] .none) := by
  unfold State.raise
  cases s.work.handler <;> simp

/-- What raising an error leaves alone. -/
theorem State.raise_frame (s : State) (e : ErrCode) :
    ∃ b ts h, s.raise e = { s with
      st := { s.st with stopFail := b }, work := { s.work with tasks := ts, handler := h } } := by
  unfold State.raise
  cases s.work.handler <;> exact ⟨_, _, _, rfl⟩

/-- The answers of the pin actions that can fail. -/
theorem orRaise_cases {s t : State} {r : Except ErrCode State} (h : orRaise s r = .next t) :
    r = .ok t ∨ ∃ e, r = .error e ∧ t = s.raise e := by
  cases r with
  | ok s' => simp [orRaise] at h; exact .inl (by rw [h])
  | error e => simp [orRaise] at h; exact .inr ⟨e, rfl, h.symm⟩

/-- Command issue while BUSY = 0 answers COMMAND_ERROR or the command's rule (R140). -/
theorem issue_cases {refused : Bool} {a : Addr} {n : Half} {run : State → Out} {s t : State}
    (h : issue refused a n run s = .next t) :
    s.st.busy = false ∧ (refused = true ∧ t = s.turnedAway ∨ refused = false ∧ run (s.accepted a n) = .next t) := by
  unfold issue at h
  cases hb : s.st.busy <;> cases hr : refused <;> simp_all

/-- Command issue of a legal command that is not refused (R140, R141). -/
theorem issue_accepts {a : Addr} {n : Half} {run : State → Out} {s : State} (h : s.st.busy = false) :
    issue false a n run s = run (s.accepted a n) := by
  simp [issue, h]

/-- Command issue of a refused command (R142). -/
theorem issue_refuses {a : Addr} {n : Half} {run : State → Out} {s : State} (h : s.st.busy = false) :
    issue true a n run s = .next s.turnedAway := by
  simp [issue, h]

/-- Command issue while BUSY = 1 (R214). -/
theorem issue_busy {refused : Bool} {a : Addr} {n : Half} {run : State → Out} {s : State} (h : s.st.busy = true) :
    issue refused a n run s = .fault .commandWhileBusy := by
  simp [issue, h]

/-- A turn changes nothing but the turns still to come and the counter of free values (R72). -/
theorem State.takeTurn_frame (s : State) :
    ∃ env fresh, s.takeTurn.2 = { s with env := env, fresh := fresh } := by
  unfold State.takeTurn
  split <;> exact ⟨_, _, rfl⟩

/-- Reading raw bytes answers the buffer's elements in order, or the fault of R66. -/
theorem State.rxBytes_cases (s : State) (n : Nat) :
    (∃ bs, s.rxbuf.readFrom n 0 = .ok bs ∧ s.rxBytes n = .ok bs) ∨
    (∃ i, s.rxbuf.readFrom n 0 = .error i ∧ s.rxBytes n = .error (.unwrittenBuffer .rx i)) := by
  unfold State.rxBytes
  cases s.rxbuf.readFrom n 0 <;> simp

/-- Reading data bytes answers the buffer's elements in order, or the fault of R66. -/
theorem State.txBytes_cases (s : State) (n : Nat) :
    (∃ bs, s.txbuf.readFrom n 0 = .ok bs ∧ s.txBytes n = .ok bs) ∨
    (∃ i, s.txbuf.readFrom n 0 = .error i ∧ s.txBytes n = .error (.unwrittenBuffer .tx i)) := by
  unfold State.txBytes
  cases s.txbuf.readFrom n 0 <;> simp

/-- Reading arguments answers the buffer's elements in order, or the fault of R66. -/
theorem State.wordArgs_cases (s : State) (n : Nat) :
    (∃ ws, s.wordbuf.readFrom n 0 = .ok ws ∧ s.wordArgs n = .ok ws) ∨
    (∃ i, s.wordbuf.readFrom n 0 = .error i ∧ s.wordArgs n = .error (.unwrittenBuffer .wb i)) := by
  unfold State.wordArgs
  cases s.wordbuf.readFrom n 0 <;> simp

/-- The decoded words are one per group of three bytes. -/
theorem decodeWords_length {init : Byte} {k : Nat} {raw : List Byte} {ws : List Half} (hl : raw.length = 3 * k)
    (h : decodeWords init raw = some ws) : ws.length = k := by
  induction k generalizing raw ws with
  | zero =>
    have hn : raw = [] := List.length_eq_zero_iff.1 (by simpa using hl)
    simp [hn, decodeWords] at h
    simp [← h]
  | succ k ih =>
    match raw, hl with
    | hi :: lo :: c :: rest, hl =>
      simp only [decodeWords] at h
      split at h
      · cases hr : decodeWords init rest with
        | none => simp [hr] at h
        | some vs =>
          simp [hr] at h
          have := ih (raw := rest) (by simp at hl; omega) hr
          simp [← h, this]
      · cases h

/-- DECODE's tail answers a checksum mismatch or the stored words (R178). -/
theorem State.decodeAndFinish_cases {s t : State} {n : Half} {init : Byte} (h : s.decodeAndFinish n init = .next t) :
    ∃ raw, s.rxbuf.readFrom (rawLen n) 0 = .ok raw ∧
      (decodeWords init raw = none ∧ t = s.finish .checksumMismatch .none .write ∨
       ∃ ws, decodeWords init raw = some ws ∧ ws.length = n.toNat ∧ t = (s.putWords ws).finish .none .none .write) := by
  unfold State.decodeAndFinish at h
  rcases s.rxBytes_cases (rawLen n) with ⟨bs, hb, hr⟩ | ⟨i, -, hr⟩
  · rw [hr] at h
    refine ⟨bs, hb, ?_⟩
    cases hd : decodeWords init bs with
    | none => simp [hd] at h; exact .inl ⟨rfl, h.symm⟩
    | some ws =>
      simp [hd] at h
      exact .inr ⟨ws, rfl, decodeWords_length (by simpa [rawLen] using Memory.readFrom_length hb) hd, h.symm⟩
  · simp [hr] at h

end Sys2Proof.Machine
end

