-- ==== Sys2Proof/Laws/Step.lean ====
section
/-! SUPPORT. What a step can do: the inversion of `step`, of the sequencer's step and of a command's meaning. -/

namespace Sys2Proof.Machine

/-- A step that answers a next state waits, runs the sequencer's next line, or runs a host statement; a turn that was
taken changes only the inputs and the counter of free values. -/
theorem step_cases {s t : State} (h : step s = .next t) :
    (s.st.busy = false ∧ s.hostOp? = none ∧ t = s) ∨
    (s.st.busy = true ∧ ∃ env fresh, seqStep { s with env := env, fresh := fresh } = .next t) ∨
    (∃ o env fresh, s.hostOp? = some o ∧ (s.st.busy = false → env = s.env ∧ fresh = s.fresh) ∧
      runHostOp o { s with env := env, fresh := fresh } = .next t) := by
  unfold step at h
  split at h
  · next hn =>
    split at h
    · next hb => exact .inr (.inl ⟨hb, s.env, s.fresh, h⟩)
    · next hb => exact .inl ⟨by simpa using hb, hn, by simpa using h.symm⟩
  · next o ho =>
    split at h
    · next hb =>
      obtain ⟨env, fresh, he⟩ := s.takeTurn_frame
      split at h
      · next s' ht =>
        rw [ht] at he
        exact .inr (.inr ⟨o, env, fresh, ho, by simp [hb], by rw [← he]; exact h⟩)
      · next s' ht =>
        rw [ht] at he
        exact .inr (.inl ⟨hb, env, fresh, by rw [← he]; exact h⟩)
    · exact .inr (.inr ⟨o, s.env, s.fresh, ho, fun _ => ⟨rfl, rfl⟩, h⟩)

/-- With no host statement left and BUSY = 1, a step is the sequencer's. -/
theorem step_sequencer {s : State} (hb : s.st.busy = true) (hn : s.hostOp? = none) : step s = seqStep s := by
  simp [step, hb, hn]

/-- The sequencer's step runs the first line of its position (R21). -/
theorem seqStep_cons {s : State} {t : Task} {ts : List Task} (h : s.work.tasks = t :: ts) :
    seqStep s = runTask t (s.setTasks ts) := by
  simp [seqStep, h]

/-- A meaning that answers a next state does so while BUSY = 0: it turns the command away, or runs its rule from the
accepted state (R140). -/
theorem exec_cases {i : Instr} {s t : State} (h : exec i s = .next t) :
    s.st.busy = false ∧
    (t = s.turnedAway ∨
      match i with
      | .configure => runConfigure (s.accepted 0 0) = .next t
      | .init => t = (s.accepted 0 0).goTo initTasks .none
      | .release => t = (s.accepted 0 0).goTo (releaseTasks s.st.configured) .none
      | .write a n => t = (s.accepted a n).goTo (writeTasks (s.accepted a n).work.opn) .none
      | .read a n => t = (s.accepted a n).clearRxCount.goTo (readTasks (s.accepted a n).work.opn) .none
      | .crc8 n => runCrc8 (s.accepted 0 n) = .next t
      | .encode n => runEncode (s.accepted 0 n) = .next t
      | .decode n => (s.accepted 0 n).decodeAndFinish n s.reg.crcInit = .next t
      | .dcr a n => t = (s.accepted a n).dcrPrepare.goTo (dcrTasks (s.accepted a n).work.opn) .none) := by
  cases i <;>
    (simp only [exec, execConfigure, execInit, execRelease, execWrite, execRead, execCrc8, execEncode, execDecode,
       execDcr] at h
     obtain ⟨hb, ⟨-, ht⟩ | ⟨-, ht⟩⟩ := issue_cases h
     · exact ⟨hb, .inl ht⟩
     · first
       | exact ⟨hb, .inr ht⟩
       | exact ⟨hb, .inr (by simpa [State.begin] using ht.symm)⟩)

/-- A run of one step more (the host's `run`). -/
theorem run_succ (k : Nat) (s : State) : Host.Core.run core (k + 1) s =
    (match step s with
     | .next s' => Host.Core.run core k s'
     | .fault f => .fault f
     | .refused f => .refused f : Out) := by
  cases h : step s <;> (simp only [Host.Core.run]; rw [show core.step s = step s from rfl, h]) <;> rfl

/-- A run that starts with a step to t. -/
theorem run_step {k : Nat} {s t : State} (h : step s = .next t) :
    Host.Core.run core (k + 1) s = Host.Core.run core k t := by
  rw [run_succ, h]

/-- Runs compose. -/
theorem run_add {j k : Nat} {s t : State} {r : Out} (h1 : Host.Core.run core j s = .next t)
    (h2 : Host.Core.run core k t = r) : Host.Core.run core (j + k) s = r := by
  induction j generalizing s with
  | zero =>
    cases show (.next s : Out) = .next t from h1
    simpa using h2
  | succ j ih =>
    rw [show j + 1 + k = (j + k) + 1 by omega, run_succ]
    rw [run_succ] at h1
    split at h1
    · exact ih h1
    · cases h1
    · cases h1

end Sys2Proof.Machine
end

