-- ==== Sys2Proof/Laws/Engine.lean ====
section
/-! SUPPORT. Everything a line of the pseudocode can do, and everything a host access can do. -/

namespace Sys2Proof.Machine

/-- A line that raises: the error, what it changed before raising, and when it raises. -/
def raises (k : Task) (s t : State) : Prop :=
  ∃ e b env fresh as,
    t = State.raise { s with
      st := { s.st with stretchWait := b }, env := env, fresh := fresh, trace := s.trace ++ as } e ∧
    ((k = .poll ∧ b = false ∧
        (s.pinOk .scl = true ∧ e = .clockTimeout ∧ as = [.rd .scl false] ∧ s.work.retryLeft = 0 ∨
         s.pinOk .scl = false ∧ e = .invalidPin ∧ as = [])) ∨
     (k ≠ .poll ∧ b = s.st.stretchWait ∧ env = s.env ∧ fresh = s.fresh ∧ as = [] ∧
        (k = .checkAck ∧ e = .nack ∧ s.work.ackBit = true ∨
         e = .invalidPin ∧ ((∃ l, (k = .pullup l ∨ k = .low l) ∧ s.pinOk l = false) ∨
           ((k = .sampleAck ∨ ∃ i, k = .sampleBit i) ∧ s.pinOk .sda = false)))))

/-- A line that does not raise: what it does. -/
def runs (k : Task) (s t : State) : Prop :=
  match k with
  | .fsm f => t = s.setFsm f
  | .bit f i => t = (s.setFsm f).setBiti i
  | .pullup l => s.pinOk l = true ∧ t = (s.setLine l .released).act (.pu l)
  | .low l => s.pinOk l = true ∧ t = (s.setLine l .drivenLow).act (.lo l)
  | .reset l => t = s.pinReset l
  | .sleepHalf => t = s.sleep s.cur.half.toNat
  | .sleepDelay => t = s.sleep s.work.opn.delay.toNat
  | .waitHigh => t = ((s.setStretch true).setRetryLeft s.cur.retries).push [.poll]
  | .poll =>
    s.pinOk .scl = true ∧ ∃ env fresh,
      ((s.level .scl).1 = true ∧
        t = (({ s with env := env, fresh := fresh } : State).act (.rd .scl true)).setStretch false ∨
       (s.level .scl).1 = false ∧ s.work.retryLeft ≠ 0 ∧
        t = (({ s with env := env, fresh := fresh } : State).act (.rd .scl false)).push [.retry, .poll])
  | .retry => t = (s.sleep s.cur.period.toNat).setRetryLeft (s.work.retryLeft - 1)
  | .sampleAck =>
    s.pinOk .sda = true ∧ ∃ a env fresh, a = (s.level .sda).1 ∧
      t = (({ s with env := env, fresh := fresh } : State).act (.rd .sda a)).setAckBit a
  | .checkAck => s.work.ackBit = false ∧ t = s
  | .clearShift => t = s.setShift 0
  | .sampleBit i =>
    s.pinOk .sda = true ∧ ∃ d env fresh, d = (s.level .sda).1 ∧
      t = (({ s with env := env, fresh := fresh } : State).act (.rd .sda d)).setShift
        (s.work.shift ||| (BitVec.ofBool d).setWidth 8 <<< i.toNat)
  | .onErr h => t = s.setHandler h
  | .writeData j n =>
    (¬ j < n ∧ t = s) ∨
    (j < n ∧ ∃ b, s.txbuf.get? j = some b ∧ t = (s.setByteIdx j).push (writeByte b ++ [.writeData (j + 1) n]))
  | .readData i n =>
    (¬ i < n ∧ t = s) ∨
    (i < n ∧ t = (s.setByteIdx i).push (readByte (decide (i + 1 < n)) ++ [.storeByte i, .readData (i + 1) n]))
  | .storeByte i => t = s.storeByte i
  | .initDone =>
    (∀ p ∈ s.peers, s.sharesWith p = false) ∧ t = (s.setInitialized true).finish .none .none .write
  | .releaseDone => t = s.releaseDone
  | .decodeRaw =>
    ∃ raw, s.rxbuf.readFrom (rawLen s.work.opn.n) 0 = .ok raw ∧
      (decodeWords s.work.opn.init raw = none ∧ t = s.finish .checksumMismatch .none .write ∨
       ∃ ws, decodeWords s.work.opn.init raw = some ws ∧ ws.length = s.work.opn.n.toNat ∧
         t = (s.putWords ws).finish .none .none .write)
  | .finish e ph dir => t = s.finish e ph dir

/-- A line raises, or does what its rule says. -/
theorem runTask_cases {k : Task} {s t : State} (h : runTask k s = .next t) : raises k s t ∨ runs k s t := by
  cases k with
  | pullup l =>
    simp only [runTask] at h
    rcases s.pinPullup_cases l with ⟨hp, h'⟩ | ⟨hp, h'⟩ <;> rw [h'] at h <;> simp [orRaise] at h
    · exact .inr ⟨hp, h.symm⟩
    · exact .inl ⟨_, _, s.env, s.fresh, [], by rw [← h]; simp, .inr ⟨by simp, rfl, rfl, rfl, rfl, .inr ⟨rfl, .inl ⟨l, .inl rfl, hp⟩⟩⟩⟩
  | low l =>
    simp only [runTask] at h
    rcases s.pinLow_cases l with ⟨hp, h'⟩ | ⟨hp, h'⟩ <;> rw [h'] at h <;> simp [orRaise] at h
    · exact .inr ⟨hp, h.symm⟩
    · exact .inl ⟨_, _, s.env, s.fresh, [], by rw [← h]; simp, .inr ⟨by simp, rfl, rfl, rfl, rfl, .inr ⟨rfl, .inl ⟨l, .inr rfl, hp⟩⟩⟩⟩
  | poll =>
    simp only [runTask, runPoll] at h
    rcases s.pinRead_cases .scl with ⟨hp, env, fresh, h'⟩ | ⟨hp, h'⟩
    · rw [h'] at h
      cases hl : (s.level .scl).1 <;> rw [hl] at h <;> simp at h
      · by_cases hz : s.work.retryLeft = 0#8
        · simp only [hz, if_true] at h
          exact .inl ⟨_, false, env, fresh, _, (Host.Outcome.next.inj h).symm, .inl ⟨rfl, rfl, .inl ⟨hp, rfl, rfl, hz⟩⟩⟩
        · simp only [hz, if_false] at h
          exact .inr ⟨hp, env, fresh, .inr ⟨hl, hz, (Host.Outcome.next.inj h).symm⟩⟩
      · exact .inr ⟨hp, env, fresh, .inl ⟨hl, h.symm⟩⟩
    · rw [h'] at h
      simp at h
      exact .inl ⟨_, false, s.env, s.fresh, [], by rw [← h]; simp [State.setStretch], .inl ⟨rfl, rfl, .inr ⟨hp, rfl, rfl⟩⟩⟩
  | sampleAck =>
    simp only [runTask, runSampleAck] at h
    rcases s.pinRead_cases .sda with ⟨hp, env, fresh, h'⟩ | ⟨hp, h'⟩ <;> rw [h'] at h <;> simp at h
    · exact .inr ⟨hp, _, env, fresh, rfl, h.symm⟩
    · exact .inl ⟨_, _, s.env, s.fresh, [], by rw [← h]; simp, .inr ⟨by simp, rfl, rfl, rfl, rfl, .inr ⟨rfl, .inr ⟨.inl rfl, hp⟩⟩⟩⟩
  | sampleBit i =>
    simp only [runTask, runSampleBit] at h
    rcases s.pinRead_cases .sda with ⟨hp, env, fresh, h'⟩ | ⟨hp, h'⟩ <;> rw [h'] at h <;> simp at h
    · exact .inr ⟨hp, _, env, fresh, rfl, h.symm⟩
    · exact .inl ⟨_, _, s.env, s.fresh, [], by rw [← h]; simp, .inr ⟨by simp, rfl, rfl, rfl, rfl, .inr ⟨rfl, .inr ⟨.inr ⟨i, rfl⟩, hp⟩⟩⟩⟩
  | checkAck =>
    simp only [runTask] at h
    cases ha : s.work.ackBit <;> rw [ha] at h <;> simp at h
    · exact .inr ⟨ha, h.symm⟩
    · exact .inl ⟨_, _, s.env, s.fresh, [], by rw [← h]; simp, .inr ⟨by simp, rfl, rfl, rfl, rfl, .inl ⟨rfl, rfl, ha⟩⟩⟩
  | writeData j n =>
    simp only [runTask, runWriteData] at h
    split_ifs at h with hj
    · split at h
      · cases h
      · next b hb => cases h; exact .inr (.inr ⟨hj, b, hb, rfl⟩)
    · cases h; exact .inr (.inl ⟨hj, rfl⟩)
  | readData i n =>
    simp only [runTask, runReadData] at h
    split_ifs at h with hj
    · cases h; exact .inr (.inr ⟨hj, rfl⟩)
    · cases h; exact .inr (.inl ⟨hj, rfl⟩)
  | initDone =>
    simp only [runTask, runInitDone] at h
    split_ifs at h with hp
    cases h
    exact .inr ⟨by simpa using hp, rfl⟩
  | decodeRaw => exact .inr (State.decodeAndFinish_cases h)
  | _ => simp only [runTask] at h; cases h; exact .inr rfl

/-- A host read of a buffer changes one host variable, and the counter of free values at most (R61, R76). -/
theorem bufRead_cases {b : Buf} {i t : Nat} {s u : State} (h : bufRead b i t s = .next u) :
    ∃ v fresh, u = { s.setVar t v with fresh := fresh } := by
  unfold bufRead at h
  split_ifs at h
  · cases h; exact ⟨_, _, rfl⟩
  · cases h; exact ⟨_, s.fresh, rfl⟩
  · split at h
    · cases h
    · cases h; exact ⟨_, s.fresh, rfl⟩

/-- A host write of a buffer happens while BUSY = 0, and stores one element in range or nothing (R63, R75). -/
theorem bufWrite_cases {b : Buf} {i : Nat} {v : Word} {s u : State} (h : bufWrite b i v s = .next u) :
    s.st.busy = false ∧ (u = s ∨ (i < s.bufSize b ∧ u = s.putElement b i v)) := by
  unfold bufWrite at h
  split_ifs at h with h1 h2 <;> cases h
  · exact ⟨by simpa using h1, .inl rfl⟩
  · exact ⟨by simpa using h1, .inr ⟨by omega, rfl⟩⟩

/-- Two other instances have a pin in common (R218). -/
theorem Peer.shares_iff {p q : Peer} :
    p.shares q = true ↔ p.scl = q.scl ∨ p.scl = q.sda ∨ p.sda = q.scl ∨ p.sda = q.sda := by
  simp only [Peer.shares, Peer.holds, Bool.or_eq_true, beq_iff_eq]
  tauto

/-- Another instance has a pin in common with this one (R218). -/
theorem State.sharesWith_iff {s : State} {p : Peer} :
    s.sharesWith p = true ↔
      p.scl = s.cur.sclPin ∨ p.scl = s.cur.sdaPin ∨ p.sda = s.cur.sclPin ∨ p.sda = s.cur.sdaPin := by
  simp only [State.sharesWith, Peer.holds, Bool.or_eq_true, beq_iff_eq]
  tauto

/-- Another instance's INIT has no pin in common with this INITIALIZED instance or with a third one, and changes only the
list of the other instances (R218). -/
theorem peerInit_cases {k : Nat} {scl sda : PinId} {s t : State} (h : peerInit k scl sda s = .next t) :
    (s.st.initialized = true → s.sharesWith (s.peerOf k scl sda) = false) ∧
    (∀ q ∈ s.peers, q.id ≠ k → q.shares (s.peerOf k scl sda) = false) ∧ t = s.addPeer (s.peerOf k scl sda) := by
  unfold peerInit at h
  split_ifs at h with hc
  cases h
  simp only [Bool.or_eq_true, Bool.and_eq_true, List.any_eq_true, bne_iff_ne, not_or, not_and, not_exists,
    Bool.not_eq_true] at hc
  exact ⟨hc.1, hc.2, rfl⟩

/-- The instance k that INIT finds is k. -/
@[simp] theorem State.peerOf_id (s : State) (k : Nat) (scl sda : PinId) : (s.peerOf k scl sda).id = k := by
  unfold State.peerOf
  cases h : s.peers.find? fun q => q.id == k with
  | none => rfl
  | some q => simpa using List.find?_some h

/-- An instance that is not listed is found with the given pins. -/
theorem State.peerOf_of_not_mem {s : State} {k : Nat} {scl sda : PinId} (h : ∀ q ∈ s.peers, q.id ≠ k) :
    s.peerOf k scl sda = { id := k, scl := scl, sda := sda } := by
  unfold State.peerOf
  rw [List.find?_eq_none.mpr (by simpa using h)]
  rfl

/-- An instance that is not listed is added to the list. -/
theorem State.addPeer_of_not_mem {s : State} {p : Peer} (h : ∀ q ∈ s.peers, q.id ≠ p.id) :
    s.addPeer p = { s with peers := p :: s.peers } := by
  unfold State.addPeer
  rw [if_neg (by simpa using h)]

/-- An instance that is listed is not added again (R145). -/
theorem State.addPeer_of_mem {s : State} {p q : Peer} (hq : q ∈ s.peers) (h : q.id = p.id) : s.addPeer p = s := by
  unfold State.addPeer
  rw [if_pos (List.any_eq_true.mpr ⟨q, hq, by simpa using h⟩)]

/-- A stored element changes no other element (R61). -/
theorem State.element_putElement {b c : Buf} {s : State} {i j : Nat} {v : Word} (h : ¬ (c = b ∧ j = i)) :
    (s.putElement b i v).element c j = s.element c j := by
  cases b <;> cases c <;> simp_all [State.putElement, State.element, Memory.get?_set]

/-- A stored element changes the three buffers at most (R61). -/
theorem State.putElement_frame (s : State) (b : Buf) (i : Nat) (v : Word) :
    ∃ x y z, s.putElement b i v = { s with txbuf := x, rxbuf := y, wordbuf := z } := by
  cases b <;> exact ⟨_, _, _, rfl⟩

/-- A register write never touches the registers the host cannot write (R28). -/
theorem Regs.write_frame (r : Regs) (n : Nat) (v : Word) :
    (r.write n v).halfPeriod = r.halfPeriod ∧ (r.write n v).stretchRetries = r.stretchRetries ∧
    (r.write n v).result = r.result ∧ (r.write n v).rxCount = r.rxCount := by
  unfold Regs.write
  split <;> exact ⟨rfl, rfl, rfl, rfl⟩

/-- A host statement issues a command (R140), resets the block (R230), or leaves STATUS, the latched configuration, the
sequencer, TRACE and the platform alone (R68). -/
theorem runHostOp_cases {o : HostOp} {s t : State} (h : runHostOp o s = .next t) :
    (∃ w, o = .wr 0 w ∧ issueWord w s.nextStmt = .next t) ∨ (o = .reset ∧ t = s.nextStmt.resetBlock) ∨
    ∃ reg tx rx wb host peers fresh,
      t = { s with reg := reg, txbuf := tx, rxbuf := rx, wordbuf := wb, host := host, peers := peers, fresh := fresh } := by
  cases o with
  | wr n v =>
    simp only [runHostOp, regWrite] at h
    split_ifs at h with hn
    · exact .inl ⟨v, by rw [hn], h⟩
    · cases h; exact .inr (.inr ⟨_, _, _, _, _, _, _, rfl⟩)
  | reset => simp only [runHostOp] at h; cases h; exact .inr (.inl ⟨rfl, rfl⟩)
  | bw b i v =>
    rcases bufWrite_cases h with ⟨-, rfl | ⟨-, rfl⟩⟩
    · exact .inr (.inr ⟨_, _, _, _, _, _, _, rfl⟩)
    · obtain ⟨x, y, z, e⟩ := s.nextStmt.putElement_frame b i v
      exact .inr (.inr ⟨s.reg, x, y, z, _, s.peers, s.fresh, e⟩)
  | br b i t =>
    obtain ⟨v, fresh, rfl⟩ := bufRead_cases h
    exact .inr (.inr ⟨_, _, _, _, _, _, _, rfl⟩)
  | branch t hi lo eq v k =>
    simp only [runHostOp] at h
    cases h
    split <;> exact .inr (.inr ⟨_, _, _, _, _, _, _, rfl⟩)
  | peerInit k scl sda =>
    obtain ⟨-, -, rfl⟩ := peerInit_cases h
    exact .inr (.inr ⟨_, _, _, _, _, _, _, rfl⟩)
  | _ => simp only [runHostOp] at h; cases h; exact .inr (.inr ⟨_, _, _, _, _, _, _, rfl⟩)

end Sys2Proof.Machine
end

