-- ==== Sys2Proof/Laws/PerInstr.lean ====
section
/-! SUPPORT. Statements made of every instruction as syntax, one lemma per constructor. -/

namespace Sys2Proof.Laws

/-- The word of an instruction matches the instruction's row of R84, and its operands fit their fields. -/
def RowMatch.Statement (i : Instr) : Prop :=
  encode i &&& maskOf i = matchOf i ∧ i.wellFormed = true

theorem RowMatch.configure : RowMatch.Statement .configure := by unfold RowMatch.Statement; decide

theorem RowMatch.init : RowMatch.Statement .init := by unfold RowMatch.Statement; decide

theorem RowMatch.release : RowMatch.Statement .release := by unfold RowMatch.Statement; decide

theorem RowMatch.write (a : Addr) (n : Half) : RowMatch.Statement (.write a n) :=
  ⟨formatC_and_addrMask 0x04 a n, by simp [Instr.wellFormed]⟩

theorem RowMatch.read (a : Addr) (n : Half) : RowMatch.Statement (.read a n) :=
  ⟨formatC_and_addrMask 0x05 a n, by simp [Instr.wellFormed]⟩

theorem RowMatch.crc8 (n : Half) : RowMatch.Statement (.crc8 n) :=
  ⟨formatC_and_countMask 0x06 n, by simp [Instr.wellFormed]⟩

theorem RowMatch.encode (n : Half) : RowMatch.Statement (.encode n) :=
  ⟨formatC_and_countMask 0x07 n, by simp [Instr.wellFormed]⟩

theorem RowMatch.decode (n : Half) : RowMatch.Statement (.decode n) :=
  ⟨formatC_and_countMask 0x08 n, by simp [Instr.wellFormed]⟩

theorem RowMatch.dcr (a : Addr) (n : Half) : RowMatch.Statement (.dcr a n) :=
  ⟨formatC_and_addrMask 0x09 a n, by simp [Instr.wellFormed]⟩

end Sys2Proof.Laws
end

