-- ==== Sys2Proof/Tests/Slice0.lean ====
section
/-! SUPPORT. The model's own tests, each on one step with its expected result taken from the spec's tables (section
numbers are those of 95_test_vectors.md), and a witness for the hypotheses of every statement. -/

namespace Sys2Proof.Tests

open Sys2Proof.Machine Sys2Proof.Safety

/-! ### Well-formedness (R88): an ill-formed operand for each check -/

theorem test_fitsAddr_refuses : fitsAddr 0x7F = true ∧ fitsAddr 0x80 = false := by decide

theorem test_fitsCount_refuses : fitsCount 0xFFFF = true ∧ fitsCount 0x10000 = false := by decide

theorem test_fitsRange_refuses :
    fitsRange 31 0 = true ∧ fitsRange 3 4 = false ∧ fitsRange 32 0 = false := by decide

theorem test_fitsWord_refuses : fitsWord 0xFFFFFFFF = true ∧ fitsWord 0x100000000 = false := by decide

theorem test_stmt_wellFormed_refuses :
    Stmt.wellFormed (.WRITE 0x80 1) = false ∧ Stmt.wellFormed (.READ 1 0x10000) = false ∧
    Stmt.wellFormed (.DCR 0x80 0) = false ∧ Stmt.wellFormed (.CRC8 0x10000) = false ∧
    Stmt.wellFormed (.ENCODE 0x10000) = false ∧ Stmt.wellFormed (.DECODE 0x10000) = false ∧
    Stmt.wellFormed (.wr .CMD 0x100000000) = false ∧ Stmt.wellFormed (.bw .tx 0 0x100000000) = false ∧
    Stmt.wellFormed (.ifEq 0 3 4 0 0) = false ∧ Stmt.wellFormed (.ifNe 0 32 0 0 0) = false ∧
    Stmt.wellFormed (.SETUP 0x100000000 0 0 0) = false ∧ Stmt.wellFormed (.PROBE 0x80) = false ∧
    Stmt.wellFormed (.SEND16 0x80 0) = false ∧ Stmt.wellFormed (.CMDREAD 0 0 0 0x10000) = false := by decide

theorem test_assemble_refuses :
    assemble [.WRITE 0x80 1] = none ∧ assemble [.goto 7] = none ∧ assemble [.label 1, .label 1] = none := by decide

/-- R89's WAIT_IDLE: its branch goes back to its own read of STATUS. -/
theorem test_assemble_wait_idle :
    assemble [.INIT, .WAIT_IDLE] = some [.wr 0 0x00000002, .rd 1 0, .branch 0 0 0 true 1 1] := by decide

/-- R88's labels are host-side only. -/
theorem test_assemble_labels :
    assemble [.goto 5, .label 5, .halt] = some [.goto 1, .halt] := by decide

/-! ### Decoding (section 2.1, R84, R90), each word written out from the fields of R81 -/

theorem test_decode_configure : decode 0b0000000000000000_0_0000000_00000001 = .ok .configure := by decide

theorem test_decode_init : decode 0b0000000000000000_0_0000000_00000010 = .ok .init := by decide

theorem test_decode_release : decode 0b0000000000000000_0_0000000_00000011 = .ok .release := by decide

theorem test_decode_write :
    decode 0b0000000000000001_0_1000000_00000100 = .ok (.write 0x40 1) ∧
    decode 0xFFFF7F04 = .ok (.write 0x7F 65535) := by decide

theorem test_decode_read :
    decode 0b0000000000000001_0_1011000_00000101 = .ok (.read 0x58 1) ∧
    decode 0x00007F05 = .ok (.read 0x7F 0) := by decide

theorem test_decode_crc8 :
    decode 0b0000000000000010_0_0000000_00000110 = .ok (.crc8 2) ∧ decode 0x00000006 = .ok (.crc8 0) := by decide

theorem test_decode_encode : decode 0b0000000000000001_0_0000000_00000111 = .ok (.encode 1) := by decide

theorem test_decode_decode : decode 0b0000000000000001_0_0000000_00001000 = .ok (.decode 1) := by decide

theorem test_decode_dcr :
    decode 0b0000000000000011_0_1011000_00001001 = .ok (.dcr 0x58 3) ∧ decode 0x00000009 = .ok (.dcr 0 0) := by decide

theorem test_decode_illegal :
    decode 0x00000000 = .error .reservedOpcode ∧ decode 0x0000000A = .error .reservedOpcode ∧
    decode 0x000000FF = .error .reservedOpcode ∧ decode 0x00010001 = .error .countNotZero ∧
    decode 0x00000102 = .error .addrNotZero ∧ decode 0x00008004 = .error .reservedBit ∧
    decode 0x00008005 = .error .reservedBit ∧ decode 0xFFFFFF04 = .error .reservedBit ∧
    decode 0x00014006 = .error .addrNotZero ∧ decode 0x00010107 = .error .addrNotZero := by decide

theorem test_encode_words :
    encode .configure = 0x00000001 ∧ encode .init = 0x00000002 ∧ encode .release = 0x00000003 ∧
    encode (.write 0x40 1) = 0x00014004 ∧ encode (.read 0x58 1) = 0x00015805 ∧ encode (.crc8 2) = 0x00020006 ∧
    encode (.encode 1) = 0x00010007 ∧ encode (.decode 1) = 0x00010008 ∧ encode (.dcr 0x58 3) = 0x00035809 := by decide

theorem test_decodeTableWord :
    decodeTableWord 32 0x00015805 = some (.read 0x58 1) ∧ decodeTableWord 32 0x0000000A = none ∧
    decodeTableWord 32 1 = some .configure := by decide

/-! ### States -/

/-- The next state of an outcome. -/
def nextOf (o : Out) : Option State :=
  match o with
  | .next s => some s
  | _ => none

/-- The fault of an outcome. -/
def faultOf (o : Out) : Option Fault :=
  match o with
  | .fault f => some f
  | _ => none

/-- After reset, with a configuration in the CFG registers and not yet latched. -/
def fresh (scl sda : PinId) (p : Half) : State :=
  { State.reset with reg := { Regs.reset with cfgSclPin := scl, cfgSdaPin := sda, cfgPeriod := p } }

/-- After CONFIGURE on the default platform (section 0), with another pin for SDA where a vector says so. -/
def configured (sda : PinId) : State :=
  { fresh 4 sda 10 with
    st := { Status.reset with configured := true }
    reg := { (fresh 4 sda 10).reg with halfPeriod := 5, stretchRetries := 15 }
    cur := { sclPin := 4, sdaPin := sda, period := 10, half := 5, retries := 15 } }

/-- "Ready" of section 0. -/
def ready : State :=
  { configured 5 with
    st := { Status.reset with configured := true, initialized := true, scl := .released, sda := .released } }

/-- Ready, with a command running at the lines ts under the clause h. -/
def running (h : Handler) (ts : List Task) : State :=
  { ready with
    st := { ready.st with busy := true }
    work := { ready.work with tasks := ts, handler := h } }

/-- The same, with draws to come. -/
def runningWith (h : Handler) (ts : List Task) (scl sda : List Bool) : State :=
  { running h ts with env := { sclDraws := scl, sdaDraws := sda, turns := [] } }

/-- Ready, with draws to come. -/
def readyWith (scl sda : List Bool) : State :=
  { ready with env := { sclDraws := scl, sdaDraws := sda, turns := [] } }

/-- A state whose host runs the program next. -/
def hosted (s : State) (p : List HostOp) : State := s.loadProgram p

/-- The STATUS word after an outcome. -/
def statusOf (o : Out) : Option Word := (nextOf o).map (·.regRead 1)

/-! ### One step of each command -/

/-- Section 2.4: p = 10 and p = 65535. -/
theorem test_configure_latches :
    (nextOf (exec .configure (fresh 4 5 10))).map (fun t => (t.regRead 1, t.regRead 5, t.regRead 6)) =
      some (0x00000002, 5, 15) ∧
    (nextOf (exec .configure (fresh 4 5 65535))).map (fun t => (t.regRead 1, t.regRead 5, t.regRead 6)) =
      some (0x00000002, 32767, 0) := by decide

/-- Section 2.4: p = 1, and one pin for both lines; section 2.5: CONFIGURE when Ready. -/
theorem test_configure_rejects :
    statusOf (exec .configure (fresh 4 5 1)) = some 0x00000050 ∧
    statusOf (exec .configure (fresh 7 7 10)) = some 0x00000050 ∧
    statusOf (exec .configure ready) = some 0x00050066 := by decide

/-- Section 2.5: INIT from reset is refused; R141: after acceptance BUSY is 1 and no pin action has been performed. -/
theorem test_init_accepts :
    statusOf (exec .init State.reset) = some 0x00000060 ∧
    (nextOf (exec .init (configured 5))).map (fun t => (t.st.busy, t.trace)) = some (true, []) := by decide

/-- R145: the last line of INIT. Section 2.4 gives the STATUS of Ready. -/
theorem test_init_ends :
    statusOf (seqStep { configured 5 with
      st := { (configured 5).st with busy := true, fsm := .pinSetup, scl := .released, sda := .released }
      work := { Work.reset with tasks := [.initDone] } }) = some 0x00050006 := by decide

/-- Section 2.4: RELEASE when Ready ends with STATUS = 0x00000002; the last line. -/
theorem test_release_ends :
    statusOf (seqStep { running .none [.releaseDone] with
      st := { ready.st with busy := true, fsm := .pinSetup, scl := .neutral, sda := .neutral } }) =
      some 0x00000002 := by decide

/-- R147: RELEASE is never refused, and with CONFIGURED = 0 has no pin action. -/
theorem test_release_accepts :
    (nextOf (exec .release State.reset)).map (·.work.tasks) = some [.releaseDone] := by decide

/-- Section 2.5: WRITE before INIT, and n = 17 > BUF_LEN. -/
theorem test_write_refused :
    statusOf (exec (.write 0x40 1) (configured 5)) = some 0x00000062 ∧
    statusOf (exec (.write 0x40 17) ready) = some 0x00050066 := by decide

/-- L1-7: the first line of a WRITE's START, PU(SCL), after its FSM line. -/
theorem test_write_starts :
    (nextOf (exec (.write 0x40 1) ready)).map (fun t => (t.st.busy, t.work.tasks.take 3)) =
      some (true, [.onErr (.cleanup .address .write), .fsm .started, .pullup .scl]) := by decide

/-- Section 2.5: READ before INIT, and n = 17 > BUF_LEN. -/
theorem test_read_refused :
    statusOf (exec (.read 0x58 1) (configured 5)) = some 0x00000062 ∧
    statusOf (exec (.read 0x40 17) ready) = some 0x00050066 := by decide

/-- L1-3: of three bytes, bytes 0 and 1 are ACKed and byte 2 is NACKed. -/
theorem test_read_nacks_the_last_byte :
    (nextOf (seqStep (running .none [.readData 1 3]))).map (·.work.tasks) =
      some (readByte true ++ [.storeByte 1, .readData 2 3]) ∧
    (nextOf (seqStep (running .none [.readData 2 3]))).map (·.work.tasks) =
      some (readByte false ++ [.storeByte 2, .readData 3 3]) := by decide

/-- Section 2.8: CRC8 of BE EF, inits 0xFF and 0x00; of 20 03 BE EF. -/
theorem test_crc8_result :
    (nextOf (exec (.crc8 2) { State.reset with txbuf := [(0, 0xBE), (1, 0xEF)] })).map
      (fun t => (t.regRead 10, t.regRead 1)) = some (0x00000092, 0) ∧
    (nextOf (exec (.crc8 2) { State.reset with
      txbuf := [(0, 0xBE), (1, 0xEF)], reg := { Regs.reset with crcInit := 0 } })).map (·.regRead 10) =
        some 0x00000013 ∧
    (nextOf (exec (.crc8 4) { State.reset with txbuf := [(0, 0x20), (1, 0x03), (2, 0xBE), (3, 0xEF)] })).map
      (·.regRead 10) = some 0x0000007E := by decide +kernel

/-- Section 2.8: CRC8 0 gives the init and reads no buffer; R66: an unwritten element faults. -/
theorem test_crc8_corners :
    (nextOf (exec (.crc8 0) { State.reset with reg := { Regs.reset with crcInit := 0x5A } })).map (·.regRead 10) =
      some 0x0000005A ∧
    faultOf (exec (.crc8 2) { State.reset with txbuf := [(0, 0xBE)] }) = some (.unwrittenBuffer .tx 1) := by decide

/-- Section 2.8: ENCODE 2 with CRC_INIT = 0x00. -/
theorem test_encode_two_words :
    (nextOf (exec (.encode 2) { State.reset with
      reg := { Regs.reset with argCmd := 0x3608, crcInit := 0 }, wordbuf := [(0, 0x0102), (1, 0xABCD)] })).map
      (fun t => (t.txbuf.map (·.2), t.regRead 10)) =
        some ([0x36, 0x08, 0x01, 0x02, 0x96, 0xAB, 0xCD, 0xEE], 8) := by decide +kernel

/-- Section 2.5: n = 5 > WBUF_LEN; section 2.8: ENCODE 0. -/
theorem test_encode_corners :
    statusOf (exec (.encode 5) ready) = some 0x00050066 ∧
    (nextOf (exec (.encode 0) { State.reset with reg := { Regs.reset with argCmd := 0x2003 } })).map
      (fun t => (t.txbuf.map (·.2), t.regRead 10)) = some ([0x20, 0x03], 2) := by decide

/-- Section 2.8: DECODE 2 of two good groups. -/
theorem test_decode_two_words :
    (nextOf (exec (.decode 2) { State.reset with
      rxbuf := [(0, 0xBE), (1, 0xEF), (2, 0x92), (3, 0x12), (4, 0x34), (5, 0x37)] })).map
      (fun t => (t.wordbuf, t.regRead 1)) = some ([(0, 0xBEEF), (1, 0x1234)], 0) := by decide +kernel

/-- Section 2.8: DECODE 2 whose second group fails stores nothing. -/
theorem test_decode_mismatch :
    (nextOf (exec (.decode 2) { State.reset with
      rxbuf := [(0, 0xBE), (1, 0xEF), (2, 0x92), (3, 0x12), (4, 0x34), (5, 0x38)]
      wordbuf := [(0, 0x1111), (1, 0x2222)] })).map
      (fun t => (t.wordbuf, t.regRead 1)) = some ([(0, 0x1111), (1, 0x2222)], 0x00000040) := by decide +kernel

/-- Section 2.9: DCR puts the two command bytes in TXBUF and clears RX_COUNT; section 2.5: n = 6. -/
theorem test_dcr_accepts :
    (nextOf (exec (.dcr 0x58 1) { ready with reg := { ready.reg with argCmd := 0x2008, rxCount := 9 } })).map
      (fun t => (t.txbuf, t.regRead 11, t.st.busy)) = some ([(0, 0x20), (1, 0x08)], 0, true) ∧
    statusOf (exec (.dcr 0x58 6) ready) = some 0x00050066 := by decide

/-- Section 2.9: the end of DCR, on 12 34 37 and on 12 34 38. -/
theorem test_dcr_ends :
    (nextOf (seqStep { running .none [.decodeRaw] with
      rxbuf := [(0, 0x12), (1, 0x34), (2, 0x37)]
      work := { (running .none [.decodeRaw]).work with opn := { Opn.reset with n := 1, init := 0xFF } } })).map
      (fun t => (t.wordbuf, t.regRead 1)) = some ([(0, 0x1234)], 0x00050006) ∧
    (nextOf (seqStep { running .none [.decodeRaw] with
      rxbuf := [(0, 0x12), (1, 0x34), (2, 0x38)], wordbuf := [(0, 0xAAAA)]
      work := { (running .none [.decodeRaw]).work with opn := { Opn.reset with n := 1, init := 0xFF } } })).map
      (fun t => (t.wordbuf, t.regRead 1)) = some ([(0, 0xAAAA)], 0x00050046) := by decide +kernel

/-! ### The rest of the machine -/

/-- The host's placement of an instruction (log 1): the very next step runs it. -/
theorem test_withFetchWord_runs :
    statusOf (step (State.reset.withFetchWord 32 0x00000002)) = some 0x00000060 ∧
    statusOf (step (State.reset.withFetchWord 32 0x00000001)) = some 0x00000050 := by decide

/-- R214: a word placed while BUSY = 1 is a fault. -/
theorem test_withFetchWord_busy :
    faultOf (step ((running .none [.sleepHalf]).withFetchWord 32 0x00000002)) = some .commandWhileBusy := by decide

/-- L1-10: address byte formation. -/
theorem test_address_bytes :
    addrByteWrite 0x40 = 0x80 ∧ addrByteRead 0x40 = 0x81 ∧ addrByteWrite 0x58 = 0xB0 ∧ addrByteRead 0x58 = 0xB1 ∧
    addrByteWrite 0x7F = 0xFE ∧ addrByteRead 0x7F = 0xFF := by decide

/-- Section 2.7: the CRC table. -/
theorem test_crc_table :
    crc8 [] 0xFF = 0xFF ∧ crc8 [0x00] 0xFF = 0xAC ∧ crc8 [0xFF] 0x00 = 0xAC ∧ crc8 [0xFF, 0xFF] 0x00 = 0x2D ∧
    crc8 [0x80, 0x00] 0xFF = 0xA2 ∧ crc8 [0xAB, 0xCD] 0xFF = 0x6F ∧ crc8 [0x36, 0x82] 0x00 = 0xF0 ∧
    crc8 [0x01, 0xF4] 0xFF = 0x33 := by decide +kernel

/-- Section 2.7: the eight steps of 0xBE from 0x41. -/
theorem test_crc_steps :
    crcShift 0x41 = 0x82 ∧ crcShift 0x82 = 0x35 ∧ crcShift 0x35 = 0x6A ∧ crcShift 0xD4 = 0x99 ∧
    crcShift 0x99 = 0x03 ∧ crcByte 0xFF 0xBE = 0x0C := by decide

/-- Section 2.3: the SDA actions of the bits of 0x3C, and the ACK phase of the lines. -/
theorem test_write_bits :
    bitsDown.map (fun i => sdaTo (BitVec.getLsbD (0x3C : Byte) i.toNat)) =
      [.low .sda, .low .sda, .pullup .sda, .pullup .sda, .pullup .sda, .pullup .sda, .low .sda, .low .sda] := by decide

/-- Section 2.6, the WRITE timing out: with no retry left the read of 0 is the last action, and STOP follows. -/
theorem test_poll_times_out :
    (nextOf (seqStep (runningWith (.cleanup .address .write) [.poll, .finish .none .none .write] [false] []))).map
      (fun t => (t.trace, t.work.tasks)) =
        some ([.rd .scl false], stop ++ [.finish .clockTimeout .address .write]) := by decide

/-- R76: STATUS of a running command; FSM_STATE = WRITING_BIT, BIT_INDEX = 7, SCL and SDA as R31 places them. -/
theorem test_status_word :
    State.statusWord { running .none [.sleepHalf] with
      st := { ready.st with busy := true, fsm := .writingBit, scl := .drivenLow, stretchWait := true }
      work := { Work.reset with biti := 7, tasks := [.sleepHalf] } } = 0x00762807 := by decide

/-- Section 2.11 and R218: another instance's INIT on a pin this one holds, and on a pin a third one holds. -/
theorem test_shared_pins :
    faultOf (runHostOp (.peerInit 1 4 9) ready) = some .sharedPins ∧
    faultOf (runHostOp (.peerInit 2 8 9) { ready with peers := [{ id := 1, scl := 7, sda := 8 }] }) =
      some .sharedPins := by decide

/-- R145, R218: an instance that repeats INIT holds its pins once, so its release frees them. -/
theorem test_repeated_peer_init :
    ((nextOf (runHostOp (.peerInit 1 7 8) ready)).bind fun s => (nextOf (runHostOp (.peerInit 1 7 8) s)).bind fun t =>
      (nextOf (runHostOp (.peerRelease 1) t)).map fun u => (t.peers.length, u.peers)) = some (1, []) := by decide

/-- R88: a new host program has none of the old program's variables. -/
theorem test_load_drops_variables : (hosted { ready with host := { ready.host with vars := [(0, 7)] } } []).host.vars = [] :=
  rfl

/-- R230, R233: reset in the middle of a command, with no action traced; R63: registers above 15 read 0. -/
theorem test_reset_event :
    (nextOf (runHostOp .reset (running (.cleanup .data .write) [.sleepHalf]))).map
      (fun t => (t.regRead 1, t.regRead 7, t.trace, t.work.tasks)) = some (0, 0xFF, [], []) ∧
    ready.regRead 16 = 0 := by decide

/-! ### Witnesses: the hypotheses of each statement can be met -/

theorem witness_DecodeOfEncodeIsTheCommand :
    (Instr.write 0x7F 0xFFFF).wellFormed = true ∧ (Instr.dcr 0 0).wellFormed = true := by decide

theorem witness_EncodeOfDecodeIsTheWord : decode 0xFFFF7F09 = .ok (.dcr 0x7F 0xFFFF) := by decide

theorem witness_WordIsACommandExactlyWhenOneRowMatches :
    (0x00004004 : Word) &&& 0x000080FF = 0x00000004 := by decide

theorem witness_ReservedEncodingsCompleteWithCommandError :
    opcOf 0x00000000 = 0 ∧ 0x0A ≤ (opcOf 0x0000000A).toNat ∧ 0x0A ≤ (opcOf 0x000000FF).toNat ∧
    rsvOf 0x00008004 = true ∧ (opcOf 0x00004006 = 6 ∧ addrOf 0x00004006 ≠ 0) ∧
    (opcOf 0x00010001 = 1 ∧ countOf 0x00010001 ≠ 0) ∧ ready.st.busy = false := by decide

theorem witness_AssemblerEmitsTheCommandWord :
    (0x7F ≤ 0x7F ∧ 0xFFFF ≤ 0xFFFF) ∧ (0x7F < 0x80 ∨ 0xFFFF < 0) ∧ (0x7F < 0 ∨ 0xFFFF < 0x10000) := by decide

theorem witness_StepRunsTheDecodedCommand :
    let s := hosted ready [.wr 0 0x00024004]
    s.st.busy = false ∧ s.hostOp? = some (.wr 0 0x00024004) ∧ decode 0x00024004 = .ok (.write 0x40 2) := by decide

theorem witness_StepWaitsOrTakesTurns :
    (ready.st.busy = false ∧ ready.hostOp? = none) ∧
    ((running .none [.sleepHalf]).st.busy = true ∧ (running .none [.sleepHalf]).hostOp? = none) ∧
    (let s := { hosted (running .none [.sleepHalf]) [.halt] with
        env := { sclDraws := [], sdaDraws := [], turns := [.sequencer] } }
     s.st.busy = true ∧ s.hostOp? = some .halt ∧ s.env.turns = [.sequencer]) ∧
    (let s := { hosted (running .none [.sleepHalf]) [.halt] with
        env := { sclDraws := [], sdaDraws := [], turns := [.host] } }
     s.st.busy = true ∧ s.hostOp? = some .halt ∧ s.env.turns = [.host]) ∧
    ((hosted ready [.halt]).st.busy = false ∧ (hosted ready [.halt]).hostOp? = some .halt) := by decide

theorem witness_RegisterWritesStoreOnlyTheirField :
    ready.regRead 0 = 0 ∧ ready.regRead 12 = 0 ∧ ready.regRead 5 = 5 ∧ ready.regRead 6 = 15 ∧ ready.regRead 11 = 0 ∧ ready.regRead 7 = 0xFF ∧
    (nextOf (regWrite 7 0x1234 ready)).map (·.regRead 7) = some 0x34 ∧
    (nextOf (regWrite 4 0x12345 ready)).map (·.regRead 4) = some 0x2345 := by decide

theorem witness_HostBufferAccessesStoreAndReadElements :
    ready.st.busy = false ∧ 15 < ready.bufSize .tx ∧ 15 < ready.bufSize .rx ∧ 3 < ready.bufSize .wb ∧
    ready.bufSize .tx ≤ 16 ∧ ready.bufSize .wb ≤ 4 := by decide

theorem witness_UnwrittenElementsFault :
    (ready.st.busy = false ∧ 15 < ready.bufSize .rx ∧ ready.element .rx 15 = none) ∧
    (let s := running .none [.sleepHalf]
     ¬ (s.st.busy = true ∧ (Buf.tx = .rx ∨ Buf.tx = .wb)) ∧ 0 < s.bufSize .tx ∧ s.element .tx 0 = none) ∧
    (let s := { ready with txbuf := [(0, 1)] }
     (2 : Half).toNat ≤ s.plat.bufLen ∧ s.txbuf.get? 1 = none ∧ ∀ j < 1, (s.txbuf.get? j).isSome) ∧
    (let s := { ready with wordbuf := [(0, 1)] }
     (2 : Half).toNat ≤ s.plat.wbufLen ∧ 2 + 3 * (2 : Half).toNat ≤ s.plat.bufLen ∧ s.wordbuf.get? 1 = none ∧
       ∀ j < 1, (s.wordbuf.get? j).isSome) ∧
    (let s := { ready with rxbuf := [(0, 1)] }
     3 * (4 : Half).toNat ≤ s.plat.bufLen ∧ s.rxbuf.get? 1 = none ∧ ∀ j < 1, (s.rxbuf.get? j).isSome) ∧
    (let s := running .none [.writeData 0 1]
     s.work.tasks = [.writeData 0 1] ∧ s.txbuf.get? 0 = none) := by decide

theorem witness_WritesWhileBusyFault : (running .none [.sleepHalf]).st.busy = true := by decide

theorem witness_ReadsWhileBusyAreDefinedOrFree :
    let s := { running .none [.sleepHalf] with txbuf := [(15, 7)] }
    s.st.busy = true ∧ 15 < s.plat.bufLen ∧ s.txbuf.get? 15 = some 7 ∧ s.plat.bufLen ≤ 16 := by decide

theorem witness_OnlyTracedPinActionsChangeTheLines :
    (nextOf (seqStep (running .none [.low .scl]))).isSome ∧ (nextOf (seqStep (running .none [.clearShift]))).isSome :=
  by decide

theorem witness_PinActionsDoWhatTheRulesSay :
    (running .none [.pullup .scl]).pinOk .scl = true ∧ (running .none [.low .sda]).pinOk .sda = true ∧
    State.pinOk { running .none [.low .sda] with cur := (configured 99).cur } .sda = false ∧
    State.pinOk { running .none [.poll] with cur := { (configured 5).cur with sclPin := 98 } } .scl = false ∧
    (let s := runningWith .none [.poll] [false] []
     s.pinOk .scl = true ∧ s.st.scl ≠ .drivenLow ∧ drawsOf s .scl = [false]) ∧
    State.lineOf { running .none [.sampleBit 3] with st := { ready.st with busy := true, sda := .drivenLow } } .sda =
      .drivenLow := by decide

/-- R103, R106: the poll of a refused pin clears STRETCH_WAIT, traces nothing and raises InvalidPin. -/
theorem test_poll_refused :
    (nextOf (seqStep { running (.cleanup .data .read) [.poll] with
      st := { ready.st with busy := true, stretchWait := true }
      cur := { (configured 5).cur with sclPin := 98 } })).map (fun t => (t.st.stretchWait, t.trace, t.work.tasks)) =
        some (false, [], stop ++ [.finish .invalidPin .data .read]) := by decide

theorem witness_ReadOfALineIsItsLevel :
    (let s := { running .none [.sampleAck] with st := { ready.st with busy := true, sda := .drivenLow } }
     s.pinOk .sda = true ∧ s.st.sda = .drivenLow) ∧
    (let s := runningWith .none [.sampleAck] [] [true]
     s.pinOk .sda = true ∧ s.st.sda ≠ .drivenLow ∧ s.env.sdaDraws = [true]) := by decide

theorem witness_WaitClockHighEndsWhenSclReadsHigh :
    let s (k : Nat) := runningWith .none [.waitHigh] (List.replicate k false ++ [true]) []
    ((s 15).st.busy = true ∧ (s 15).hostOp? = none ∧ (s 15).st.scl = .released ∧ (s 15).pinOk .scl = true ∧
      15 ≤ (s 15).cur.retries.toNat ∧ (s 15).env.sclDraws = List.replicate 15 false ++ [true]) ∧
    (s 0).env.sclDraws = List.replicate 0 false ++ [true] := by decide

theorem witness_WaitClockHighTimesOut :
    let s := runningWith .none [.waitHigh] (List.replicate 16 false) []
    s.st.busy = true ∧ s.hostOp? = none ∧ s.st.scl = .released ∧ s.pinOk .scl = true ∧
    s.env.sclDraws = List.replicate (s.cur.retries.toNat + 1) false ++ [] := by decide

theorem witness_StartAndStopEndWithTheirLines :
    (let s := runningWith .none (start ++ [.sleepHalf]) [true] []
     s.st.busy = true ∧ s.hostOp? = none ∧ s.pinOk .scl = true ∧ s.pinOk .sda = true ∧
     s.work.tasks = start ++ [.sleepHalf] ∧ s.env.sclDraws = [true]) ∧
    (running .none (stop ++ [.sleepHalf])).work.tasks = stop ++ [.sleepHalf] := by decide

theorem witness_WriteByteSendsBitsAndSamplesAck :
    let s := runningWith (.cleanup .data .write) (writeByte 0xA5) (List.replicate 9 true) [true]
    s.st.busy = true ∧ s.hostOp? = none ∧ s.pinOk .scl = true ∧ s.pinOk .sda = true ∧
    s.work.tasks = writeByte 0xA5 ++ [] ∧ s.env.sclDraws = List.replicate 9 true ++ [] ∧ s.env.sdaDraws = [true] := by
  decide

theorem witness_ReadByteAssemblesBitsAndSendsAck :
    let s := runningWith (.cleanup .data .read) (readByte false) (List.replicate 9 true)
      [true, true, false, true, false, true, false, false]
    s.st.busy = true ∧ s.hostOp? = none ∧ s.pinOk .scl = true ∧ s.pinOk .sda = true ∧
    s.work.tasks = readByte false ++ [] ∧ s.env.sclDraws = List.replicate 9 true ++ [] ∧
    s.env.sdaDraws = bitsOf 0xD4 ++ [] := by decide

/-- A state with no command running meets PositionInv. -/
theorem positionInv_of_idle {s : State} (hb : s.st.busy = false) (ht : s.work.tasks = []) (hh : s.work.handler = .none)
    (hf : s.st.fsm = .idle) (hi : s.work.biti = 0) (hw : s.st.stretchWait = false) : PositionInv s :=
  ⟨fun h => by simp [hb] at h, fun _ => ⟨ht, hh, hf, hi, hw⟩⟩

theorem ready_positionInv : PositionInv ready := positionInv_of_idle rfl rfl rfl rfl rfl rfl

theorem reset_positionInv : PositionInv State.reset := positionInv_of_idle rfl rfl rfl rfl rfl rfl

theorem witness_LegalityTableDecidesRefusal :
    PositionInv ready ∧ ready.st.busy = false ∧
    refusedByTable ready .configure ∧ refusedByTable State.reset .init ∧
    refusedByTable ready (.write 0 17) ∧ refusedByTable State.reset (.read 0 0) ∧
    refusedByTable ready (.crc8 17) ∧ refusedByTable ready (.encode 5) ∧
    refusedByTable ready (.decode 5) ∧ refusedByTable ready (.dcr 0 6) ∧
    ¬ refusedByTable State.reset .configure ∧ ¬ refusedByTable ready .init ∧
    ¬ refusedByTable ready .release ∧ ¬ refusedByTable ready (.write 0 16) ∧
    ¬ refusedByTable ready (.read 0 16) ∧ ¬ refusedByTable ready (.crc8 16) ∧
    ¬ refusedByTable ready (.encode 4) ∧ ¬ refusedByTable ready (.decode 4) ∧
    ¬ refusedByTable ready (.dcr 0 4) := by
  refine ⟨ready_positionInv, ?_⟩
  simp only [refusedByTable]
  decide

theorem witness_AcceptanceSamplesTheOperands :
    ready.st.busy = false ∧ ¬ refusedByTable ready .init ∧ ¬ refusedByTable ready .release ∧
    ¬ refusedByTable ready (.write 0x7F 16) ∧ ¬ refusedByTable ready (.read 0x7F 16) ∧
    ¬ refusedByTable ready (.dcr 0x7F 4) := by
  simp only [refusedByTable]
  decide

theorem witness_ConfigureLatchesTheConfiguration :
    let s := fresh 4 5 2
    s.st.busy = false ∧ s.st.initialized = false ∧ s.st.scl = .neutral ∧ s.st.sda = .neutral ∧
    2 ≤ s.reg.cfgPeriod.toNat ∧ s.reg.cfgSclPin ≠ s.reg.cfgSdaPin := by decide

theorem witness_ConfigureRejectsADegenerateConfiguration :
    (let s := fresh 4 5 1
     s.st.busy = false ∧ s.st.initialized = false ∧ s.st.scl = .neutral ∧ s.st.sda = .neutral ∧
     s.reg.cfgPeriod.toNat < 2) ∧
    (fresh 7 7 10).reg.cfgSclPin = (fresh 7 7 10).reg.cfgSdaPin := by decide

theorem witness_InitReleasesBothLines :
    let s := { configured 5 with peers := [{ id := 1, scl := 3, sda := 6 }] }
    s.st.busy = false ∧ s.hostOp? = none ∧ s.st.configured = true ∧ s.pinOk .scl = true ∧ s.pinOk .sda = true ∧
    ∀ p ∈ s.peers, ¬ commonPin p.scl p.sda s.cur.sclPin s.cur.sdaPin := by decide

theorem witness_InitReportsAnInvalidPin :
    (let s := configured 99
     s.st.busy = false ∧ s.hostOp? = none ∧ s.st.configured = true ∧ s.pinOk .scl = true ∧ s.pinOk .sda = false) ∧
    State.pinOk { configured 5 with cur := { (configured 5).cur with sclPin := 98 } } .scl = false := by decide

theorem ready_peersInv : PeersInv { ready with peers := [{ id := 1, scl := 7, sda := 8 }] } := by
  unfold PeersInv
  decide

theorem witness_InitializedInstancesNeverShareAPin :
    (let s := { configured 5 with peers := [{ id := 1, scl := 9, sda := 5 }] }
     s.st.busy = false ∧ s.hostOp? = none ∧ s.st.configured = true ∧ s.pinOk .scl = true ∧ s.pinOk .sda = true ∧
     ∃ p ∈ s.peers, commonPin p.scl p.sda s.cur.sclPin s.cur.sdaPin) ∧
    (let s := { ready with peers := [{ id := 1, scl := 7, sda := 8 }] }
     (∀ p ∈ s.peers, p.id ≠ 2) ∧ s.st.initialized = true ∧ commonPin 9 4 s.cur.sclPin s.cur.sdaPin ∧
     (∃ p ∈ s.peers, commonPin 8 9 p.scl p.sda) ∧ PeersInv s ∧ ({ id := 1, scl := 7, sda := 8 } : Peer) ∈ s.peers ∧
     (nextOf (step (hosted s [.peerInit 2 9 10]))).isSome) :=
  ⟨by decide, by decide, rfl, by decide, by decide, ready_peersInv, by decide, by decide⟩

theorem witness_ReleaseNeutralisesBothLines :
    (ready.st.busy = false ∧ ready.hostOp? = none ∧ ready.st.configured = true) ∧
    (State.reset.st.busy = false ∧ State.reset.hostOp? = none ∧ State.reset.st.configured = false) := by decide

theorem witness_WriteSendsItsBytes :
    let s := { readyWith (List.replicate 19 true) [false, false] with txbuf := [(0, 0x01)] }
    s.st.busy = false ∧ s.hostOp? = none ∧ s.st.initialized = true ∧ s.pinOk .scl = true ∧ s.pinOk .sda = true ∧
    (1 : Half).toNat ≤ s.plat.bufLen ∧ s.txbuf.readFrom (1 : Half).toNat 0 = .ok [0x01] ∧
    s.env.sclDraws = List.replicate (1 + 9 * ((1 : Half).toNat + 1)) true ++ [] ∧
    s.env.sdaDraws = List.replicate ((1 : Half).toNat + 1) false ++ [] := by decide

theorem witness_ReadStoresTheBytesSent :
    let s := readyWith (List.replicate 19 true) [false, true, true, false, true, false, true, false, false]
    s.st.busy = false ∧ s.hostOp? = none ∧ s.st.initialized = true ∧ s.pinOk .scl = true ∧ s.pinOk .sda = true ∧
    (1 : Half).toNat ≤ s.plat.bufLen ∧ ([0xD4] : List Byte).length = (1 : Half).toNat ∧
    s.env.sclDraws = List.replicate (1 + 9 * ((1 : Half).toNat + 1)) true ++ [] ∧
    s.env.sdaDraws = false :: ([0xD4] : List Byte).flatMap bitsOf ++ [] := by decide

/-- The hypotheses that the statements about transactions share. -/
abbrev canTransfer (s : State) : Prop :=
  s.st.busy = false ∧ s.hostOp? = none ∧ s.st.initialized = true ∧ s.pinOk .scl = true ∧ s.pinOk .sda = true

/-- Ready, at the draws of a bus error. -/
def failing (x : BusError) : State := readyWith x.sclDraws x.sdaDraws

/-- The draws of a bus error are those the state answers, and nothing more. -/
abbrev draws (s : State) (scl sda : List Bool) (x : BusError) : Prop :=
  s.env.sclDraws = scl ++ x.sclDraws ++ [] ∧ s.env.sdaDraws = sda ++ x.sdaDraws ++ []

/-- WRITE: the second data byte NACKed, with the third unwritten; START timed out; data bit 7 and the ACK phase of the
address byte timed out. -/
theorem witness_BusErrorsEndWithStopAndNameTheirPhase :
    (let x := byteNacked ready.cur [0x80, 0x01] 0x02
     let s := { failing x with txbuf := [(0, 0x01), (1, 0x02)] }
     canTransfer s ∧ (3 : Half).toNat ≤ s.plat.bufLen ∧ s.txbuf.readFrom 2 0 = .ok [0x01, 0x02] ∧
     WriteFails s.cur [addrByteWrite 0x40, 0x01, 0x02] x ∧ draws s [] [] x) ∧
    (let x := startTimesOut ready.cur
     canTransfer (failing x) ∧ WriteFails ready.cur [addrByteWrite 0x40] x ∧ draws (failing x) [] [] x) ∧
    (let x := byteTimesOut ready.cur [] 0x80
     WriteFails ready.cur [addrByteWrite 0x40] (x 0) ∧ WriteFails ready.cur [addrByteWrite 0x40] (x 8) ∧
     draws (failing (x 8)) [] [] (x 8)) :=
  ⟨⟨by decide, by decide, by decide, .nack (rest := []) rfl, by decide⟩, ⟨by decide, .start, by decide⟩,
    .timeout (rest := []) rfl (by decide), .timeout (rest := []) rfl (by decide), by decide⟩

/-- READ: the address byte NACKed; the second of two bytes timed out in its ACK/NACK phase. -/
theorem witness_BusErrors_read :
    (let x := byteNacked ready.cur [] 0x81
     canTransfer (failing x) ∧ (0 : Half).toNat ≤ ready.plat.bufLen ∧ ReadFails ready.cur 0x40 (0 : Half).toNat [] x ∧
     draws (failing x) [] [] x) ∧
    (let x := readByteTimesOut ready.cur 0x40 [0xD4] false (bitsOf 0x12)
     canTransfer (failing x) ∧ (2 : Half).toNat ≤ ready.plat.bufLen ∧
     ReadFails ready.cur 0x40 (2 : Half).toNat [0xD4] x ∧ draws (failing x) [] [] x) :=
  ⟨⟨by decide, by decide, .address (.nack (rest := []) rfl), by decide⟩,
    ⟨by decide, by decide, .data (by decide) (by decide), by decide⟩⟩

/-- DCR: the address byte of its write NACKed; the first byte of its read timed out. -/
theorem witness_BusErrors_dcr :
    (let x := byteNacked ready.cur [] 0xB0
     canTransfer (failing x) ∧ (4 : Half).toNat ≤ ready.plat.wbufLen ∧ 3 * (4 : Half).toNat ≤ ready.plat.bufLen ∧
     WriteFails ready.cur (addrByteWrite 0x58 ::
       [ready.reg.argCmd.extractLsb' 8 8, ready.reg.argCmd.extractLsb' 0 8]) x ∧ draws (failing x) [] [] x) ∧
    (let x := readByteTimesOut ready.cur 0x58 [] true [true]
     let s := readyWith (List.replicate (1 + 9 * 3) true ++ x.sclDraws) ([false, false, false] ++ x.sdaDraws)
     canTransfer s ∧ s.plat.wf = true ∧ ReadFails s.cur 0x58 (3 * (4 : Half).toNat) [] x ∧
     draws s (List.replicate (1 + 9 * 3) true) [false, false, false] x) :=
  ⟨⟨by decide, by decide, by decide, .nack rfl, by decide⟩,
    ⟨by decide, by decide, .data (by decide) (by decide), by decide⟩⟩

theorem witness_OnlyTheLastByteOfAReadIsNacked :
    (running .none [.readData 2 3]).work.tasks = [.readData 2 3] ∧ (2 < 3) ∧ (0 < 3) := by decide

theorem witness_Crc8PutsTheCrcInResult :
    let s := { ready with txbuf := [(0, 0xBE), (1, 0xEF)] }
    s.st.busy = false ∧ (2 : Half).toNat ≤ s.plat.bufLen ∧ s.txbuf.readFrom (2 : Half).toNat 0 = .ok [0xBE, 0xEF] := by
  decide

theorem witness_EncodeWritesTheFramedCommand :
    let s := { ready with wordbuf := [(0, 1), (1, 2), (2, 3), (3, 4)] }
    s.st.busy = false ∧ (4 : Half).toNat ≤ s.plat.wbufLen ∧ 2 + 3 * (4 : Half).toNat ≤ s.plat.bufLen ∧
    s.wordbuf.readFrom (4 : Half).toNat 0 = .ok [1, 2, 3, 4] := by decide

theorem witness_DecodeStoresWordsOnlyWhenEveryCrcAgrees :
    (let s := { ready with rxbuf := [(0, 0xBE), (1, 0xEF), (2, 0x92)] }
     s.st.busy = false ∧ (1 : Half).toNat ≤ s.plat.wbufLen ∧ 3 * (1 : Half).toNat ≤ s.plat.bufLen ∧
     s.rxbuf.readFrom (3 * (1 : Half).toNat) 0 = .ok [0xBE, 0xEF, 0x92] ∧
     decodeWords s.reg.crcInit [0xBE, 0xEF, 0x92] = some [0xBEEF]) ∧
    (Memory.readFrom ([(0, 0xBE), (1, 0xEF), (2, 0x93)] : Memory 8) 3 0 = .ok [0xBE, 0xEF, 0x93] ∧
     decodeWords ready.reg.crcInit [0xBE, 0xEF, 0x93] = none) := by decide +kernel

theorem witness_EncodedWordsDecodeAndTheFirstBadGroupDecides : crc8 [0xBE, 0xEF] 0xFF ≠ 0x93 := by decide +kernel

theorem witness_SingleBitFlipsAreDetected :
    (7 < 8) ∧ decodeWords 0xFF [0xBE, 0xEF, 0x12] = none ∧ decodeWords 0xFF [0x3E, 0xEF, 0x92] = none := by decide +kernel

theorem witness_DcrWritesWaitsReadsAndDecodes :
    let s := readyWith (List.replicate 65 true)
      ([false, false, false, false] ++ bitsOf 0x12 ++ bitsOf 0x34 ++ bitsOf 0x37)
    s.st.busy = false ∧ s.hostOp? = none ∧ s.st.initialized = true ∧ s.pinOk .scl = true ∧ s.pinOk .sda = true ∧
    (1 : Half).toNat ≤ s.plat.wbufLen ∧ 3 * (1 : Half).toNat ≤ s.plat.bufLen ∧ s.plat.wf = true ∧
    ([0x12, 0x34, 0x37] : List Byte).length = 3 * (1 : Half).toNat ∧
    s.env.sclDraws = List.replicate (1 + 9 * 3 + (1 + 9 * (3 * (1 : Half).toNat + 1))) true ++ [] ∧
    s.env.sdaDraws = [false, false, false] ++ false :: ([0x12, 0x34, 0x37] : List Byte).flatMap bitsOf ++ [] ∧
    decodeWords s.reg.crcInit [0x12, 0x34, 0x37] = some [0x1234] ∧
    decodeWords s.reg.crcInit [0x12, 0x34, 0x38] = none := by decide +kernel

theorem witness_ErrorInATransactionRunsCleanupStop :
    (let s := running (.cleanup .data .read) [.checkAck, .finish .none .none .read]
     s.st.busy = true ∧ s.hostOp? = none ∧ s.work.handler = .cleanup .data .read ∧ Phase.data ≠ .none ∧
     s.pinOk .scl = true ∧ s.pinOk .sda = true) ∧
    State.pinOk { running (.cleanup .data .read) [.checkAck] with cur := (configured 99).cur } .sda = false ∧
    (let s := { running (.cleanup .data .read) [.checkAck] with cur := { (configured 5).cur with sclPin := 98 } }
     s.st.busy = true ∧ s.hostOp? = none ∧ s.work.handler = .cleanup .data .read ∧ s.pinOk .sda = true ∧
     s.pinOk .scl = false) := by decide

/-- A running command at lines that end with a command's end meets PositionInv. -/
theorem running_positionInv (h : Handler) (ts : List Task) (e : Task) (he : endsCommand e = true) :
    PositionInv (running h (ts ++ [e])) :=
  ⟨fun _ => ⟨ts, e, rfl, he⟩, fun hb => by simp [running] at hb⟩

/-- The lines of a READ. -/
def readLines : List Task := txRead 0x58 1 ++ [.finish .none .none .read]

theorem witness_EveryCommandEnds :
    PositionInv (running .none readLines) ∧ (running .none readLines).st.busy = true ∧
    HostDone (running .none readLines) :=
  ⟨running_positionInv _ _ _ rfl, rfl, rfl⟩

theorem witness_HostRegistersDoNotDisturbARunningCommand :
    (nextOf (seqStep (running .none [.low .scl]))).isSome ∧
    faultOf (seqStep (running .none [.writeData 0 1])) = some (.unwrittenBuffer .tx 0) := by decide

theorem witness_CommandFrame :
    (nextOf (exec .configure (fresh 4 5 10))).isSome ∧ (nextOf (exec .init (configured 5))).isSome ∧
    (nextOf (exec .release ready)).isSome ∧ (nextOf (exec (.write 0 0) ready)).isSome ∧
    (nextOf (exec (.read 0 0) ready)).isSome ∧ (nextOf (exec (.crc8 0) ready)).isSome ∧
    (nextOf (exec (.encode 0) ready)).isSome ∧ (nextOf (exec (.decode 0) ready)).isSome ∧
    (nextOf (exec (.dcr 0 0) ready)).isSome := by decide

theorem witness_SequencerFrame :
    (running .none [.storeByte 15]).work.tasks = [.storeByte 15] ∧
    (nextOf (seqStep (running .none [.storeByte 15]))).isSome ∧
    (nextOf (seqStep (running .none [.decodeRaw]))).isSome ∧
    (nextOf (seqStep (running .none [.releaseDone]))).isSome := by decide

theorem witness_HostAccessFrame :
    (nextOf (runHostOp (.wr 7 1) ready)).isSome ∧ (nextOf (runHostOp (.bw .wb 3 1) ready)).isSome ∧
    (nextOf (runHostOp (.rd 1 0) ready)).isSome := by decide

/-! The states that meet the invariants: reset (no command), and a READ in progress on valid pins. -/

/-- A READ in progress. -/
def reading : State := running .none readLines

theorem reading_positionInv : PositionInv reading := running_positionInv _ _ _ rfl

theorem reading_steps : (nextOf (step reading)).isSome := by decide

theorem reading_pinsInv : PinsInv reading := by
  unfold PinsInv PinsValid
  decide

theorem witness_StepKeepsThePosition :
    PositionInv reading ∧ PositionInv ready ∧ (nextOf (step reading)).isSome :=
  ⟨reading_positionInv, ready_positionInv, reading_steps⟩

theorem witness_StepKeepsStretchWaitTrue :
    PositionInv reading ∧ StretchInv reading ∧ (nextOf (step reading)).isSome :=
  ⟨reading_positionInv, ⟨fun h => absurd h (by decide), fun _ => by decide⟩, reading_steps⟩

theorem witness_StepKeepsTheMirroredRegisters : MirrorInv reading ∧ (nextOf (step reading)).isSome :=
  ⟨⟨rfl, rfl⟩, reading_steps⟩

theorem witness_StepKeepsUnconfiguredLinesNeutral :
    ConfiguredInv (hosted State.reset [.wr 0 3]) ∧ (nextOf (step (hosted State.reset [.wr 0 3]))).isSome :=
  ⟨fun _ => ⟨rfl, rfl, rfl, rfl⟩, by decide⟩

theorem witness_StepKeepsTheBusIdleBetweenCommands :
    PositionInv reading ∧ BusInv reading ∧ (nextOf (step reading)).isSome :=
  ⟨reading_positionInv, ⟨reading_pinsInv, by decide, fun _ => by decide⟩, reading_steps⟩

theorem witness_StepKeepsReadsOnReleasedLines : ReadsInv reading ∧ (nextOf (step reading)).isSome :=
  ⟨by unfold ReadsInv; decide, reading_steps⟩

theorem witness_StepKeepsStopsSucceeding : StopInv reading ∧ (nextOf (step reading)).isSome :=
  ⟨⟨reading_pinsInv, by decide, fun _ => ⟨by decide, by decide⟩, rfl, by decide, rfl, by decide⟩, reading_steps⟩

theorem witness_StepKeepsMemoriesCanonical : MemoryWf reading ∧ (nextOf (step reading)).isSome :=
  ⟨⟨.nil, .nil, .nil, .nil⟩, reading_steps⟩

theorem witness_StepKeepsElementsInsideTheBuffers : BoundsInv reading ∧ (nextOf (step reading)).isSome :=
  ⟨⟨by decide, by decide, by decide, by decide, by decide⟩, reading_steps⟩

theorem witness_InvariantsGiveTheRules :
    (PositionInv ready ∧ BusInv ready ∧ ready.st.busy = false ∧ ready.st.initialized = true) ∧
    (StopInv reading ∧ reading.st.initialized = true) ∧
    (let s := runningWith .none [.sampleAck] [] [true]
     ReadsInv s ∧ (nextOf (seqStep s)).map (·.trace) = some (s.trace ++ [.rd .sda true])) := by
  refine ⟨⟨ready_positionInv, ⟨?_, by decide, fun _ => by decide⟩, rfl, rfl⟩,
    ⟨witness_StepKeepsStopsSucceeding.1, rfl⟩, ⟨by unfold ReadsInv; decide, by decide⟩⟩
  unfold PinsInv PinsValid
  decide

theorem witness_TransactionsSleepAsAccounted :
    (let s := { readyWith (List.replicate 28 true) [false, false, false] with txbuf := [(0, 0x01), (1, 0x02)] }
     canTransfer s ∧ (2 : Half).toNat ≤ s.plat.bufLen ∧ s.env.sclDraws = List.replicate (1 + 9 * ((2 : Half).toNat + 1)) true ++ [] ∧
     s.txbuf.readFrom (2 : Half).toNat 0 = .ok [0x01, 0x02] ∧
     s.env.sdaDraws = List.replicate ((2 : Half).toNat + 1) false ++ []) ∧
    (let s := readyWith (List.replicate 28 true) (false :: bitsOf 0xD4 ++ bitsOf 0x12)
     canTransfer s ∧ (2 : Half).toNat ≤ s.plat.bufLen ∧ s.env.sclDraws = List.replicate (1 + 9 * ((2 : Half).toNat + 1)) true ++ [] ∧
     ([0xD4, 0x12] : List Byte).length = (2 : Half).toNat ∧
     s.env.sdaDraws = false :: ([0xD4, 0x12] : List Byte).flatMap bitsOf ++ []) := by decide

end Sys2Proof.Tests
end

section
/-! SUPPORT. Inversion lemmas that say more than those of Laws/: a host statement with the one element, register or
variable it writes, what an accepted command does to the sequencer position, and what a line of the pseudocode does to
it. The invariants of 10_state.md are drawn from these. -/

namespace Sys2Proof.Proofs

open Sys2Proof.Machine Sys2Proof.Safety

/-! ### Host statements -/

/-- A write to CMD turns the word away (R140, R142) or is the meaning of the command it decodes to. -/
theorem issueWord_cases {w : Word} {s t : State} (h : issueWord w s = .next t) :
    (s.st.busy = false ∧ t = s.turnedAway) ∨ ∃ i, exec i s = .next t := by
  unfold issueWord at h
  split at h
  · next i _ => exact .inr ⟨i, h⟩
  · unfold issueIllegal at h
    split_ifs at h with hb
    cases h
    exact .inl ⟨by simpa using hb, rfl⟩

/-- A host statement issues a command, resets the block, writes a register other than CMD, stores one element of a
buffer, assigns one variable, or changes only the program's position and the list of other instances. -/
theorem runHostOp_effects {o : HostOp} {s t : State} (h : runHostOp o s = .next t) :
    (∃ w, o = .wr 0 w ∧ issueWord w s.nextStmt = .next t) ∨
    (o = .reset ∧ t = s.nextStmt.resetBlock) ∨
    (∃ n v, o = .wr n v ∧ n ≠ 0 ∧ t = { s.nextStmt with reg := s.reg.write n v }) ∨
    (∃ b i v, o = .bw b i v ∧ s.st.busy = false ∧ i < s.bufSize b ∧ t = s.nextStmt.putElement b i v) ∨
    (∃ x v fresh, t = { s.nextStmt.setVar x v with fresh := fresh }) ∨
    (∃ pc halted peers, t = { s with host := { s.host with pc := pc, halted := halted }, peers := peers }) := by
  cases o with
  | wr n v =>
    simp only [runHostOp, regWrite] at h
    split_ifs at h with hn
    · exact .inl ⟨v, by rw [hn], h⟩
    · cases h; exact .inr (.inr (.inl ⟨n, v, rfl, hn, rfl⟩))
  | rd n x => cases h; exact .inr (.inr (.inr (.inr (.inl ⟨x, _, s.fresh, rfl⟩))))
  | bw b i v =>
    obtain ⟨hb, rfl | ⟨hi, rfl⟩⟩ := bufWrite_cases h
    · exact .inr (.inr (.inr (.inr (.inr ⟨_, _, _, rfl⟩))))
    · exact .inr (.inr (.inr (.inl ⟨b, i, v, rfl, hb, by cases b <;> exact hi, rfl⟩)))
  | br b i x =>
    obtain ⟨v, fresh, rfl⟩ := bufRead_cases h
    exact .inr (.inr (.inr (.inr (.inl ⟨x, v, fresh, rfl⟩))))
  | branch x hi lo eq v k =>
    simp only [runHostOp] at h
    cases h
    split <;> exact .inr (.inr (.inr (.inr (.inr ⟨_, _, _, rfl⟩))))
  | goto k => cases h; exact .inr (.inr (.inr (.inr (.inr ⟨_, _, _, rfl⟩))))
  | halt => cases h; exact .inr (.inr (.inr (.inr (.inr ⟨_, _, _, rfl⟩))))
  | reset => cases h; exact .inr (.inl ⟨rfl, rfl⟩)
  | peerInit k scl sda =>
    obtain ⟨-, -, rfl⟩ := peerInit_cases h
    exact .inr (.inr (.inr (.inr (.inr ⟨_, _, _, rfl⟩))))
  | peerRelease k => cases h; exact .inr (.inr (.inr (.inr (.inr ⟨_, _, _, rfl⟩))))

/-! ### Acceptance -/

/-- The lines of the commands that run on after their acceptance (R145, R147, R150, R153, R182). -/
def IsCommandLines (ts : List Task) : Prop :=
  ts = initTasks ∨ (∃ c, ts = releaseTasks c) ∨ (∃ o, ts = writeTasks o) ∨ (∃ o, ts = readTasks o) ∨ ∃ o, ts = dcrTasks o

/-- A command that was accepted has finished, or stands at the first of its lines with BUSY = 1 and STRETCH_WAIT as
before. -/
theorem exec_finishes_or_begins {i : Instr} {s t : State} (h : exec i s = .next t) :
    s.st.busy = false ∧
    ((∃ u e ph d, t = State.finish u e ph d) ∨
     ∃ u ts, t = State.goTo u ts .none ∧ IsCommandLines ts ∧ u.st.busy = true ∧ u.st.stretchWait = s.st.stretchWait) := by
  obtain ⟨hb, rfl | h⟩ := exec_cases h
  · exact ⟨hb, .inl ⟨_, _, _, _, rfl⟩⟩
  refine ⟨hb, ?_⟩
  cases i with
  | configure =>
    simp only [runConfigure] at h
    split_ifs at h <;> cases h <;> exact .inl ⟨_, _, _, _, rfl⟩
  | init => exact .inr ⟨_, _, h, .inl rfl, rfl, rfl⟩
  | release => exact .inr ⟨_, _, h, .inr (.inl ⟨_, rfl⟩), rfl, rfl⟩
  | write a n => exact .inr ⟨_, _, h, .inr (.inr (.inl ⟨_, rfl⟩)), rfl, rfl⟩
  | read a n => exact .inr ⟨_, _, h, .inr (.inr (.inr (.inl ⟨_, rfl⟩))), rfl, rfl⟩
  | crc8 n =>
    simp only [runCrc8] at h
    split at h <;> cases h
    exact .inl ⟨_, _, _, _, rfl⟩
  | encode n =>
    simp only [runEncode] at h
    split at h <;> cases h
    exact .inl ⟨_, _, _, _, rfl⟩
  | decode n =>
    obtain ⟨raw, -, ⟨-, rfl⟩ | ⟨ws, -, -, rfl⟩⟩ := State.decodeAndFinish_cases h <;> exact .inl ⟨_, _, _, _, rfl⟩
  | dcr a n => exact .inr ⟨_, _, h, .inr (.inr (.inr (.inr ⟨_, rfl⟩))), rfl, rfl⟩

/-! ### Positions outside WAIT_CLOCK_HIGH's loop -/

/-- None of the lines is one of WAIT_CLOCK_HIGH's loop. -/
def NoWait (ts : List Task) : Prop := ts.all (fun t => !inWait t) = true

theorem noWait_nil : NoWait [] := rfl

@[simp] theorem noWait_cons {k : Task} {ts : List Task} : NoWait (k :: ts) ↔ inWait k = false ∧ NoWait ts := by
  simp [NoWait]

@[simp] theorem noWait_append {ts us : List Task} : NoWait (ts ++ us) ↔ NoWait ts ∧ NoWait us := by
  simp only [NoWait, List.all_append, Bool.and_eq_true]

theorem writeBit_noWait (b : Byte) (i : BitVec 3) : NoWait (writeBit b i) := by
  unfold writeBit sdaTo
  cases b.getLsbD i.toNat <;> rfl

theorem writeByte_noWait (b : Byte) : NoWait (writeByte b) := by
  have hack : NoWait ackPhase := rfl
  simp [writeByte, bitsDown, writeBit_noWait, hack]

theorem readByte_noWait (ack : Bool) : NoWait (readByte ack) := by
  cases ack <;> rfl

theorem txWrite_noWait (a : Addr) (n : Nat) : NoWait (txWrite a n) := by
  have hstart : NoWait start := rfl
  have hstop : NoWait stop := rfl
  simp [txWrite, hstart, hstop, writeByte_noWait, inWait]

theorem txRead_noWait (a : Addr) (n : Nat) : NoWait (txRead a n) := by
  have hstart : NoWait start := rfl
  have hstop : NoWait stop := rfl
  simp [txRead, hstart, hstop, writeByte_noWait, inWait]

/-- A command enters WAIT_CLOCK_HIGH only through its first line (R106). -/
theorem IsCommandLines.noWait {ts : List Task} (h : IsCommandLines ts) : NoWait ts := by
  obtain rfl | ⟨c, rfl⟩ | ⟨o, rfl⟩ | ⟨o, rfl⟩ | ⟨o, rfl⟩ := h
  · rfl
  · cases c <;> rfl
  · exact noWait_append.2 ⟨txWrite_noWait _ _, rfl⟩
  · exact noWait_append.2 ⟨txRead_noWait _ _, rfl⟩
  · simp [dcrTasks, txWrite_noWait, txRead_noWait, noWait_nil, inWait]

/-- Raising an error leaves WAIT_CLOCK_HIGH's loop: STOP has none (R112). -/
theorem raise_noWait (s : State) (e : ErrCode) : NoWait (s.raise e).work.tasks := by
  obtain ⟨-, h⟩ | ⟨ph, dir, -, h⟩ | ⟨dir, -, h⟩ | ⟨e0, ph, dir, -, h⟩ := s.raise_cases e <;> rw [h] <;> rfl

/-! ### Positions that lead to a command's end -/

/-- The last of the lines ends a command. -/
def EndsProperly (ts : List Task) : Prop := ∃ us k, ts = us ++ [k] ∧ endsCommand k = true

theorem EndsProperly.append {us : List Task} (ts : List Task) (h : EndsProperly us) : EndsProperly (ts ++ us) := by
  obtain ⟨vs, k, rfl, hk⟩ := h
  exact ⟨ts ++ vs, k, by simp, hk⟩

/-- Past a line that does not end the command, the end is still to come. -/
theorem EndsProperly.tail {k : Task} {ts : List Task} (h : EndsProperly (k :: ts)) (hk : endsCommand k = false) :
    EndsProperly ts := by
  obtain ⟨us, e, hts, he⟩ := h
  cases us with
  | nil =>
    obtain ⟨rfl, -⟩ : k = e ∧ ts = [] := by simpa using hts
    simp [hk] at he
  | cons u us => exact ⟨us, e, (List.cons.inj hts).2, he⟩

theorem IsCommandLines.endsProperly {ts : List Task} (h : IsCommandLines ts) : EndsProperly ts := by
  obtain rfl | ⟨c, rfl⟩ | ⟨o, rfl⟩ | ⟨o, rfl⟩ | ⟨o, rfl⟩ := h
  · exact ⟨[.onErr .report, .fsm .pinSetup, .pullup .scl, .pullup .sda], _, rfl, rfl⟩
  · cases c
    · exact ⟨[], _, rfl, rfl⟩
    · exact ⟨[.fsm .pinSetup, .reset .scl, .reset .sda], _, rfl, rfl⟩
  all_goals exact ⟨_, _, rfl, rfl⟩

/-- What is left after an error is raised still ends the command (R205). -/
theorem raise_endsProperly (s : State) (e : ErrCode) : EndsProperly (s.raise e).work.tasks := by
  obtain ⟨-, h⟩ | ⟨ph, dir, -, h⟩ | ⟨dir, -, h⟩ | ⟨e0, ph, dir, -, h⟩ := s.raise_cases e <;> rw [h]
  · exact ⟨[], _, rfl, rfl⟩
  · exact ⟨stop, _, rfl, rfl⟩
  · exact ⟨[], _, rfl, rfl⟩
  · exact ⟨[], _, rfl, rfl⟩

/-! ### What a line does to the position -/

/-- The lines that a line puts before those left, and STRETCH_WAIT before and after it, when it does not end the
command. -/
def Pushes (k : Task) (before after : Bool) (pre : List Task) : Prop :=
  (k = .waitHigh ∧ pre = [.poll] ∧ after = true) ∨
  (k = .poll ∧ (pre = [] ∧ after = false ∨ pre = [.retry, .poll] ∧ after = before)) ∨
  (k ≠ .poll ∧ NoWait pre ∧ after = before)

/-- A line ends the command by finish, or keeps BUSY and puts lines before those left. -/
def MovesPosition (k : Task) (s t : State) : Prop :=
  (endsCommand k = true ∧ ∃ u e ph d, t = State.finish u e ph d) ∨
  (endsCommand k = false ∧ t.st.busy = s.st.busy ∧
    ∃ pre, t.work.tasks = pre ++ s.work.tasks ∧ Pushes k s.st.stretchWait t.st.stretchWait pre)

theorem MovesPosition.of_finish {k : Task} {s : State} (u : State) (e : ErrCode) (ph : Phase) (d : Dir)
    (hk : endsCommand k = true) : MovesPosition k s (u.finish e ph d) :=
  .inl ⟨hk, u, e, ph, d, rfl⟩

theorem MovesPosition.of_pushes {k : Task} {s t : State} {pre : List Task} (hk : endsCommand k = false)
    (hb : t.st.busy = s.st.busy) (ht : t.work.tasks = pre ++ s.work.tasks)
    (hp : Pushes k s.st.stretchWait t.st.stretchWait pre) : MovesPosition k s t :=
  .inr ⟨hk, hb, pre, ht, hp⟩

/-- A line that only moves on to the next one. -/
theorem MovesPosition.of_same {k : Task} {s t : State} (hk : endsCommand k = false) (hp : k ≠ .poll)
    (hb : t.st.busy = s.st.busy) (hw : t.st.stretchWait = s.st.stretchWait) (ht : t.work.tasks = s.work.tasks) :
    MovesPosition k s t :=
  .of_pushes (pre := []) hk hb ht (.inr (.inr ⟨hp, rfl, hw⟩))

/-- A line that does not raise ends the command by finish, or keeps BUSY and puts lines before those left. -/
theorem movesPosition_of_runs {k : Task} {s t : State} (h : runs k s t) : MovesPosition k s t := by
  cases k with
  | initDone => obtain ⟨-, rfl⟩ := h; exact .of_finish _ _ _ _ rfl
  | releaseDone => cases h; exact .of_finish _ _ _ _ rfl
  | finish e ph d => cases h; exact .of_finish _ _ _ _ rfl
  | decodeRaw => obtain ⟨raw, -, ⟨-, rfl⟩ | ⟨ws, -, -, rfl⟩⟩ := h <;> exact .of_finish _ _ _ _ rfl
  | waitHigh => cases h; exact .of_pushes rfl rfl rfl (.inl ⟨rfl, rfl, rfl⟩)
  | poll =>
    obtain ⟨-, env, fresh, ⟨-, rfl⟩ | ⟨-, -, rfl⟩⟩ := h
    · exact .of_pushes (pre := []) rfl rfl rfl (.inr (.inl ⟨rfl, .inl ⟨rfl, rfl⟩⟩))
    · exact .of_pushes (pre := [.retry, .poll]) rfl rfl rfl (.inr (.inl ⟨rfl, .inr ⟨rfl, rfl⟩⟩))
  | writeData j n =>
    obtain ⟨-, rfl⟩ | ⟨-, b, -, rfl⟩ := h
    · exact .of_same rfl nofun rfl rfl rfl
    · exact .of_pushes rfl rfl rfl (.inr (.inr ⟨nofun, noWait_append.2 ⟨writeByte_noWait b, rfl⟩, rfl⟩))
  | readData i n =>
    obtain ⟨-, rfl⟩ | ⟨-, rfl⟩ := h
    · exact .of_same rfl nofun rfl rfl rfl
    · exact .of_pushes rfl rfl rfl (.inr (.inr ⟨nofun, noWait_append.2 ⟨readByte_noWait _, rfl⟩, rfl⟩))
  | pullup l => obtain ⟨-, rfl⟩ := h; cases l <;> exact .of_same rfl nofun rfl rfl rfl
  | low l => obtain ⟨-, rfl⟩ := h; cases l <;> exact .of_same rfl nofun rfl rfl rfl
  | reset l => cases h; cases l <;> exact .of_same rfl nofun rfl rfl rfl
  | sampleAck => obtain ⟨-, a, env, fresh, -, rfl⟩ := h; exact .of_same rfl nofun rfl rfl rfl
  | sampleBit i => obtain ⟨-, d, env, fresh, -, rfl⟩ := h; exact .of_same rfl nofun rfl rfl rfl
  | checkAck => obtain ⟨-, rfl⟩ := h; exact .of_same rfl nofun rfl rfl rfl
  | _ => cases h; exact .of_same rfl nofun rfl rfl rfl

/-- A line that raises keeps BUSY, leaves WAIT_CLOCK_HIGH's loop and leads to the command's end; STRETCH_WAIT is cleared
at the poll and kept at every other line (R106, R205). -/
theorem raises_position {k : Task} {s t : State} (h : raises k s t) :
    t.st.busy = s.st.busy ∧ NoWait t.work.tasks ∧ EndsProperly t.work.tasks ∧
      (k = .poll ∧ t.st.stretchWait = false ∨ k ≠ .poll ∧ k ≠ .retry ∧ t.st.stretchWait = s.st.stretchWait) := by
  obtain ⟨e, b, env, fresh, as, rfl, hwhy⟩ := h
  refine ⟨?_, raise_noWait _ e, raise_endsProperly _ e, ?_⟩
  · obtain ⟨sf, ts, hd, hr⟩ := State.raise_frame _ e
    rw [hr]
  · have hs : ∀ u : State, (u.raise e).st.stretchWait = u.st.stretchWait := fun u => by
      obtain ⟨sf, ts, hd, hr⟩ := u.raise_frame e
      rw [hr]
    rw [hs]
    obtain ⟨hk, hb, -⟩ | ⟨hk, hb, -, -, -, hwhy⟩ := hwhy
    · exact .inl ⟨hk, hb⟩
    · refine .inr ⟨hk, ?_, hb⟩
      rintro rfl
      simp at hwhy

/-! ### Steps -/

/-- What every line of the sequencer and every host statement keeps, whatever the inputs still to come, every step
keeps. -/
theorem step_keeps {P : State → Prop} (hin : ∀ s env fresh, P s → P { s with env := env, fresh := fresh })
    (hseq : ∀ k ts s t, s.st.busy = true → s.work.tasks = k :: ts → runTask k (s.setTasks ts) = .next t → P s → P t)
    (hhost : ∀ o s t, runHostOp o s = .next t → P s → P t) {s t : State} (h : step s = .next t) (hP : P s) : P t := by
  obtain ⟨-, -, rfl⟩ | ⟨hb, env, fresh, h⟩ | ⟨o, env, fresh, -, -, h⟩ := step_cases h
  · exact hP
  · have hP' := hin s env fresh hP
    unfold seqStep at h
    split at h
    · cases h; exact hP'
    · next k ts hts => exact hseq k ts { s with env := env, fresh := fresh } t hb hts h hP'
  · exact hhost o _ t h (hin s env fresh hP)

end Sys2Proof.Proofs
end

section
/-! The sequencer position (R21, R32, R158) and STRETCH_WAIT (R31, R106). -/

namespace Sys2Proof.Proofs

open Sys2Proof.Machine Sys2Proof.Safety

/-! ### The position -/

theorem positionInv_of_busy {s : State} (hb : s.st.busy = true) (h : EndsProperly s.work.tasks) : PositionInv s :=
  ⟨fun _ => h, fun hn => by simp [hb] at hn⟩

theorem finish_positionInv (s : State) (e : ErrCode) (ph : Phase) (d : Dir) : PositionInv (s.finish e ph d) :=
  ⟨nofun, fun _ => ⟨rfl, rfl, rfl, rfl, rfl⟩⟩

theorem runTask_positionInv {k : Task} {ts : List Task} {s t : State} (hb : s.st.busy = true)
    (hts : s.work.tasks = k :: ts) (h : runTask k (s.setTasks ts) = .next t) (hs : PositionInv s) : PositionInv t := by
  have hends : EndsProperly (k :: ts) := hts ▸ hs.1 hb
  obtain hr | hr := runTask_cases h
  · obtain ⟨hbt, -, he, -⟩ := raises_position hr
    exact positionInv_of_busy (hbt.trans hb) he
  · obtain ⟨-, u, e, ph, d, rfl⟩ | ⟨hk, hbt, pre, htt, -⟩ := movesPosition_of_runs hr
    · exact finish_positionInv u e ph d
    · exact positionInv_of_busy (hbt.trans hb) (htt ▸ (hends.tail hk).append pre)

theorem exec_positionInv {i : Instr} {s t : State} (h : exec i s = .next t) : PositionInv t := by
  obtain ⟨-, ⟨u, e, ph, d, rfl⟩ | ⟨u, ts, rfl, hts, hb, -⟩⟩ := exec_finishes_or_begins h
  · exact finish_positionInv u e ph d
  · exact positionInv_of_busy hb hts.endsProperly

theorem runHostOp_positionInv {o : HostOp} {s t : State} (h : runHostOp o s = .next t) (hs : PositionInv s) :
    PositionInv t := by
  obtain ⟨w, -, hw⟩ | ⟨-, rfl⟩ | ⟨reg, tx, rx, wb, host, peers, fresh, rfl⟩ := runHostOp_cases h
  · obtain ⟨-, rfl⟩ | ⟨i, hi⟩ := issueWord_cases hw
    · exact finish_positionInv _ _ _ _
    · exact exec_positionInv hi
  · exact ⟨nofun, fun _ => ⟨rfl, rfl, rfl, rfl, rfl⟩⟩
  · exact hs

/-- Settles O49: a line that raises or runs leaves lines that end the command or finishes it, and a command begins with
lines that end it. -/
theorem stepKeepsThePosition : Obligations.StepKeepsThePosition := fun _ _ hs h =>
  step_keeps (fun _ _ _ => id) (fun _ _ _ _ => runTask_positionInv) (fun _ _ _ => runHostOp_positionInv) h hs

/-! ### STRETCH_WAIT -/

theorem stretchInv_of_noWait {s : State} (hw : s.st.stretchWait = false) (h : NoWait s.work.tasks) : StretchInv s :=
  ⟨fun ht => by simp [hw] at ht, fun _ => h⟩

theorem stretchInv_of_wait {s : State} {r : List Task} (hw : s.st.stretchWait = true) (hr : NoWait r)
    (h : s.work.tasks = .poll :: r ∨ s.work.tasks = .retry :: .poll :: r) : StretchInv s :=
  ⟨fun _ => ⟨r, h, hr⟩, fun hf => by simp [hw] at hf⟩

theorem finish_stretchInv (s : State) (e : ErrCode) (ph : Phase) (d : Dir) : StretchInv (s.finish e ph d) :=
  stretchInv_of_noWait rfl rfl

/-- Inside WAIT_CLOCK_HIGH's loop: the poll ends the wait, or the loop goes on (R106). -/
theorem runTask_stretchInv_waiting {k : Task} {ts r : List Task} {s t : State} (hw : s.st.stretchWait = true)
    (hr : NoWait r) (hts : k = .poll ∧ ts = r ∨ k = .retry ∧ ts = .poll :: r)
    (h : runTask k (s.setTasks ts) = .next t) : StretchInv t := by
  obtain hr' | hr' := runTask_cases h
  · obtain ⟨-, hn, -, ⟨-, hf⟩ | ⟨hp, hre, -⟩⟩ := raises_position hr'
    · exact stretchInv_of_noWait hf hn
    · simp [hp, hre] at hts
  · obtain ⟨rfl, rfl⟩ | ⟨rfl, rfl⟩ := hts
    · obtain ⟨-, env, fresh, ⟨-, rfl⟩ | ⟨-, -, rfl⟩⟩ := hr'
      · exact stretchInv_of_noWait rfl hr
      · exact stretchInv_of_wait hw hr (.inr rfl)
    · cases hr'
      exact stretchInv_of_wait hw hr (.inl rfl)

/-- Outside the loop: only WAIT_CLOCK_HIGH's first line enters it (R106). -/
theorem runTask_stretchInv_notWaiting {k : Task} {ts : List Task} {s t : State} (hw : s.st.stretchWait = false)
    (hn : NoWait (k :: ts)) (h : runTask k (s.setTasks ts) = .next t) : StretchInv t := by
  obtain ⟨hk, hn⟩ := noWait_cons.1 hn
  have hp : k ≠ .poll := by rintro rfl; cases hk
  obtain hr | hr := runTask_cases h
  · obtain ⟨-, hnt, -, ⟨-, hf⟩ | ⟨-, -, hf⟩⟩ := raises_position hr
    · exact stretchInv_of_noWait hf hnt
    · exact stretchInv_of_noWait (hf.trans hw) hnt
  · obtain ⟨-, u, e, ph, d, rfl⟩ | ⟨-, -, pre, htt, ⟨-, rfl, hs⟩ | ⟨hk, -⟩ | ⟨-, hpre, hs⟩⟩ := movesPosition_of_runs hr
    · exact finish_stretchInv u e ph d
    · exact stretchInv_of_wait hs hn (.inl htt)
    · exact absurd hk hp
    · exact stretchInv_of_noWait (hs.trans hw) (htt ▸ noWait_append.2 ⟨hpre, hn⟩)

theorem runTask_stretchInv {k : Task} {ts : List Task} {s t : State} (hts : s.work.tasks = k :: ts)
    (h : runTask k (s.setTasks ts) = .next t) (hs : StretchInv s) : StretchInv t := by
  cases hw : s.st.stretchWait with
  | true =>
    obtain ⟨r, hr, hn⟩ := hs.1 hw
    exact runTask_stretchInv_waiting hw hn (by simpa [hts] using hr) h
  | false => exact runTask_stretchInv_notWaiting hw (hts ▸ hs.2 hw) h

theorem exec_stretchInv {i : Instr} {s t : State} (h : exec i s = .next t) (hs : PositionInv s) : StretchInv t := by
  obtain ⟨hb, ⟨u, e, ph, d, rfl⟩ | ⟨u, ts, rfl, hts, -, hw⟩⟩ := exec_finishes_or_begins h
  · exact finish_stretchInv u e ph d
  · obtain ⟨-, -, -, -, hidle⟩ := hs.2 hb
    exact stretchInv_of_noWait (hw.trans hidle) hts.noWait

theorem runHostOp_stretchInv {o : HostOp} {s t : State} (h : runHostOp o s = .next t) (hp : PositionInv s)
    (hs : StretchInv s) : StretchInv t := by
  obtain ⟨w, -, hw⟩ | ⟨-, rfl⟩ | ⟨reg, tx, rx, wb, host, peers, fresh, rfl⟩ := runHostOp_cases h
  · obtain ⟨-, rfl⟩ | ⟨i, hi⟩ := issueWord_cases hw
    · exact finish_stretchInv _ _ _ _
    · exact exec_stretchInv hi hp
  · exact stretchInv_of_noWait rfl rfl
  · exact hs

/-- Settles O50, with the position's invariant kept along: an accepted command finds STRETCH_WAIT = 0 because the block
was idle. -/
theorem stepKeepsStretchWaitTrue : Obligations.StepKeepsStretchWaitTrue := fun _ _ hp hs h =>
  (step_keeps (P := fun s => PositionInv s ∧ StretchInv s) (fun _ _ _ => id)
    (fun _ _ _ _ hb hts h ⟨hp, hs⟩ => ⟨runTask_positionInv hb hts h hp, runTask_stretchInv hts h hs⟩)
    (fun _ _ _ h ⟨hp, hs⟩ => ⟨runHostOp_positionInv h hp, runHostOp_stretchInv h hp hs⟩) h ⟨hp, hs⟩).2

end Sys2Proof.Proofs
end

section
/-! The mirrored registers (R35) and the canonical form of the memories (R37, R38; log 6). -/

namespace Sys2Proof.Proofs

open Sys2Proof.Machine Sys2Proof.Safety

/-! ### What the sequencer and a command write -/

/-- A line of the pseudocode leaves the latched configuration, every register but RX_COUNT, TXBUF and the host alone; it
stores at most one byte of RXBUF, and words from WORDBUF's start on. -/
theorem runTask_writes {k : Task} {s t : State} (h : runTask k s = .next t) :
    t.cur = s.cur ∧ t.reg = { s.reg with rxCount := t.reg.rxCount } ∧ t.txbuf = s.txbuf ∧ t.host = s.host ∧
    (t.rxbuf = s.rxbuf ∨ ∃ i v, t.rxbuf = s.rxbuf.set i v) ∧
    (t.wordbuf = s.wordbuf ∨ ∃ ws, t.wordbuf = s.wordbuf.writeFrom 0 ws) := by
  obtain ⟨e, b, env, fresh, as, rfl, -⟩ | h := runTask_cases h
  · obtain ⟨sf, ts, hd, hr⟩ := State.raise_frame _ e
    rw [hr]
    exact ⟨rfl, rfl, rfl, rfl, .inl rfl, .inl rfl⟩
  cases k with
  | pullup l => obtain ⟨-, rfl⟩ := h; simp
  | low l => obtain ⟨-, rfl⟩ := h; simp
  | reset l => cases h; simp [State.pinReset]
  | poll => obtain ⟨-, env, fresh, ⟨-, rfl⟩ | ⟨-, -, rfl⟩⟩ := h <;> exact ⟨rfl, rfl, rfl, rfl, .inl rfl, .inl rfl⟩
  | sampleAck => obtain ⟨-, a, env, fresh, -, rfl⟩ := h; exact ⟨rfl, rfl, rfl, rfl, .inl rfl, .inl rfl⟩
  | sampleBit i => obtain ⟨-, d, env, fresh, -, rfl⟩ := h; exact ⟨rfl, rfl, rfl, rfl, .inl rfl, .inl rfl⟩
  | checkAck => obtain ⟨-, rfl⟩ := h; exact ⟨rfl, rfl, rfl, rfl, .inl rfl, .inl rfl⟩
  | writeData j n => obtain ⟨-, rfl⟩ | ⟨-, b, -, rfl⟩ := h <;> exact ⟨rfl, rfl, rfl, rfl, .inl rfl, .inl rfl⟩
  | readData i n => obtain ⟨-, rfl⟩ | ⟨-, rfl⟩ := h <;> exact ⟨rfl, rfl, rfl, rfl, .inl rfl, .inl rfl⟩
  | storeByte i => cases h; exact ⟨rfl, rfl, rfl, rfl, .inr ⟨_, _, rfl⟩, .inl rfl⟩
  | initDone => obtain ⟨-, rfl⟩ := h; exact ⟨rfl, rfl, rfl, rfl, .inl rfl, .inl rfl⟩
  | decodeRaw =>
    obtain ⟨raw, -, ⟨-, rfl⟩ | ⟨ws, -, -, rfl⟩⟩ := h
    · exact ⟨rfl, rfl, rfl, rfl, .inl rfl, .inl rfl⟩
    · exact ⟨rfl, rfl, rfl, rfl, .inl rfl, .inr ⟨ws, rfl⟩⟩
  | _ => cases h; exact ⟨rfl, rfl, rfl, rfl, .inl rfl, .inl rfl⟩

/-- A command at its acceptance leaves RXBUF and the host alone, writes TXBUF and WORDBUF from their start on, if at all,
and latches a configuration with both its mirrors, or leaves the latched configuration and the mirrors alone (R35,
R143). -/
theorem exec_writes {i : Instr} {s t : State} (h : exec i s = .next t) :
    t.rxbuf = s.rxbuf ∧ t.host = s.host ∧ (t.txbuf = s.txbuf ∨ ∃ bs, t.txbuf = s.txbuf.writeFrom 0 bs) ∧
    (t.wordbuf = s.wordbuf ∨ ∃ ws, t.wordbuf = s.wordbuf.writeFrom 0 ws) ∧
    (MirrorInv t ∨
      t.cur = s.cur ∧ t.reg.halfPeriod = s.reg.halfPeriod ∧ t.reg.stretchRetries = s.reg.stretchRetries) := by
  obtain ⟨-, rfl | h⟩ := exec_cases h
  · exact ⟨rfl, rfl, .inl rfl, .inl rfl, .inr ⟨rfl, rfl, rfl⟩⟩
  cases i with
  | configure =>
    simp only [runConfigure] at h
    split_ifs at h <;> cases h
    · exact ⟨rfl, rfl, .inl rfl, .inl rfl, .inr ⟨rfl, rfl, rfl⟩⟩
    · exact ⟨rfl, rfl, .inl rfl, .inl rfl, .inl ⟨rfl, rfl⟩⟩
  | crc8 n =>
    simp only [runCrc8] at h
    split at h <;> cases h
    exact ⟨rfl, rfl, .inl rfl, .inl rfl, .inr ⟨rfl, rfl, rfl⟩⟩
  | encode n =>
    simp only [runEncode] at h
    split at h <;> cases h
    exact ⟨rfl, rfl, .inr ⟨_, rfl⟩, .inl rfl, .inr ⟨rfl, rfl, rfl⟩⟩
  | decode n =>
    obtain ⟨raw, -, ⟨-, rfl⟩ | ⟨ws, -, -, rfl⟩⟩ := State.decodeAndFinish_cases h
    · exact ⟨rfl, rfl, .inl rfl, .inl rfl, .inr ⟨rfl, rfl, rfl⟩⟩
    · exact ⟨rfl, rfl, .inl rfl, .inr ⟨ws, rfl⟩, .inr ⟨rfl, rfl, rfl⟩⟩
  | dcr a n => cases h; exact ⟨rfl, rfl, .inr ⟨_, rfl⟩, .inl rfl, .inr ⟨rfl, rfl, rfl⟩⟩
  | _ => cases h; exact ⟨rfl, rfl, .inl rfl, .inl rfl, .inr ⟨rfl, rfl, rfl⟩⟩

/-! ### The mirrored registers -/

theorem mirrorInv_of_eq {s t : State} (hc : t.cur = s.cur) (hh : t.reg.halfPeriod = s.reg.halfPeriod)
    (hr : t.reg.stretchRetries = s.reg.stretchRetries) (hs : MirrorInv s) : MirrorInv t := by
  unfold MirrorInv
  rw [hc, hh, hr]
  exact hs

theorem runTask_mirrorInv {k : Task} {ts : List Task} {s t : State} (h : runTask k (s.setTasks ts) = .next t)
    (hs : MirrorInv s) : MirrorInv t := by
  obtain ⟨hc, hr, -⟩ := runTask_writes h
  exact mirrorInv_of_eq hc (by rw [hr]) (by rw [hr]) hs

theorem runHostOp_mirrorInv {o : HostOp} {s t : State} (h : runHostOp o s = .next t) (hs : MirrorInv s) :
    MirrorInv t := by
  obtain ⟨w, -, hw⟩ | ⟨-, rfl⟩ | ⟨n, v, -, -, rfl⟩ | ⟨b, i, v, -, -, -, rfl⟩ | ⟨x, v, fresh, rfl⟩ |
    ⟨pc, halted, peers, rfl⟩ := runHostOp_effects h
  · obtain ⟨-, rfl⟩ | ⟨i, hi⟩ := issueWord_cases hw
    · exact hs
    · obtain ⟨-, -, -, -, ht | ⟨hc, hh, hr⟩⟩ := exec_writes hi
      · exact ht
      · exact mirrorInv_of_eq hc hh hr hs
  · exact ⟨rfl, rfl⟩
  · obtain ⟨hh, hr, -⟩ := s.reg.write_frame n v
    exact mirrorInv_of_eq (s := s) rfl hh hr hs
  · exact mirrorInv_of_eq (s := s) (by simp) (by simp) (by simp) hs
  · exact hs
  · exact hs

/-- Settles O51: only CONFIGURE latches, and it writes both mirrors with what it latches; the host writes neither. -/
theorem stepKeepsTheMirroredRegisters : Obligations.StepKeepsTheMirroredRegisters := fun _ _ hs h =>
  step_keeps (fun _ _ _ => id) (fun _ _ _ _ _ _ => runTask_mirrorInv) (fun _ _ _ => runHostOp_mirrorInv) h hs

/-! ### The canonical form -/

/-- A memory left alone or written from index 0 on keeps the canonical form. -/
theorem wf_of_writeFrom {w : Nat} {m m' : Memory w} (h : m' = m ∨ ∃ vs, m' = m.writeFrom 0 vs) (hm : m.wf) : m'.wf := by
  obtain rfl | ⟨vs, rfl⟩ := h
  · exact hm
  · exact Memory.writeFrom_wf hm 0 vs

theorem runTask_memoryWf {k : Task} {ts : List Task} {s t : State} (h : runTask k (s.setTasks ts) = .next t)
    (hs : MemoryWf s) : MemoryWf t := by
  obtain ⟨htx, hrx, hwb, hv⟩ := hs
  obtain ⟨-, -, ht, hh, hr, hw⟩ := runTask_writes h
  refine ⟨ht ▸ htx, ?_, wf_of_writeFrom hw hwb, hh ▸ hv⟩
  obtain hr | ⟨i, v, hr⟩ := hr <;> rw [hr]
  · exact hrx
  · exact Memory.set_wf hrx i v

theorem exec_memoryWf {i : Instr} {s t : State} (h : exec i s = .next t) (hs : MemoryWf s) : MemoryWf t := by
  obtain ⟨htx, hrx, hwb, hv⟩ := hs
  obtain ⟨hr, hh, ht, hw, -⟩ := exec_writes h
  exact ⟨wf_of_writeFrom ht htx, hr ▸ hrx, wf_of_writeFrom hw hwb, hh ▸ hv⟩

theorem putElement_memoryWf {s : State} (hs : MemoryWf s) (b : Buf) (i : Nat) (v : Word) :
    MemoryWf (s.putElement b i v) := by
  obtain ⟨htx, hrx, hwb, hv⟩ := hs
  cases b with
  | tx => exact ⟨Memory.set_wf htx _ _, hrx, hwb, hv⟩
  | rx => exact ⟨htx, Memory.set_wf hrx _ _, hwb, hv⟩
  | wb => exact ⟨htx, hrx, Memory.set_wf hwb _ _, hv⟩

theorem runHostOp_memoryWf {o : HostOp} {s t : State} (h : runHostOp o s = .next t) (hs : MemoryWf s) :
    MemoryWf t := by
  have hnext : MemoryWf s.nextStmt := hs
  obtain ⟨htx, hrx, hwb, hv⟩ := hs
  obtain ⟨w, -, hw⟩ | ⟨-, rfl⟩ | ⟨n, v, -, -, rfl⟩ | ⟨b, i, v, -, -, -, rfl⟩ | ⟨x, v, fresh, rfl⟩ |
    ⟨pc, halted, peers, rfl⟩ := runHostOp_effects h
  · obtain ⟨-, rfl⟩ | ⟨i, hi⟩ := issueWord_cases hw
    · exact hnext
    · exact exec_memoryWf hi hnext
  · exact ⟨.nil, .nil, .nil, hv⟩
  · exact hnext
  · exact putElement_memoryWf hnext b i v
  · exact ⟨htx, hrx, hwb, Memory.set_wf hv x v⟩
  · exact ⟨htx, hrx, hwb, hv⟩

/-- Settles O56: every memory is written through `Memory.set` and `Memory.writeFrom` alone, which keep the form (log 6). -/
theorem stepKeepsMemoriesCanonical : Obligations.StepKeepsMemoriesCanonical := fun _ _ hs h =>
  step_keeps (fun _ _ _ => id) (fun _ _ _ _ _ _ => runTask_memoryWf) (fun _ _ _ => runHostOp_memoryWf) h hs

end Sys2Proof.Proofs
end

section
/-! The host's view of the register file and STATUS (R27, R28, R31), and the sequencer's pin actions (R25, R26). -/

namespace Sys2Proof.Proofs

open Sys2Proof.Machine Sys2Proof.Safety

/-! ### Register writes -/

/-- A 16-bit field keeps the low 16 bits of what is written. -/
theorem setWidth_half (v : Word) : (v.setWidth 16).setWidth 32 = v &&& 0xFFFF := by
  ext i
  interval_cases i <;> simp

/-- An 8-bit field keeps the low 8 bits of what is written. -/
theorem setWidth_byte (v : Word) : (v.setWidth 8).setWidth 32 = v &&& 0xFF := by
  ext i
  interval_cases i <;> simp

/-- CMD, the reserved registers and every number above 15 read 0 (R28, R63). -/
theorem regRead_unlisted {n : Nat} (s : State) (h : n = 0 ∨ 12 ≤ n) : s.regRead n = 0 := by
  obtain rfl | h := h
  · rfl
  · obtain ⟨m, rfl⟩ := Nat.exists_eq_add_of_le' h
    rfl

/-- A write to a read-write register of 16 bits is read back (R28). -/
theorem regRead_write_half {n : Nat} (h : n ∈ [2, 3, 4, 8, 9]) (s : State) (v : Word) :
    State.regRead { s with reg := s.reg.write n v } n = v &&& 0xFFFF := by
  fin_cases h <;> exact setWidth_half v

/-- A write to CRC_INIT is read back (R28). -/
theorem regRead_write_crcInit (s : State) (v : Word) :
    State.regRead { s with reg := s.reg.write 7 v } 7 = v &&& 0xFF :=
  setWidth_byte v

/-- A write to no read-write register stores nothing (R28). -/
theorem regsWrite_ignored {n : Nat} (h : n ∉ [2, 3, 4, 7, 8, 9]) (r : Regs) (v : Word) : r.write n v = r := by
  unfold Regs.write
  split <;> simp_all

/-- STATUS shows nothing of the other registers (R31). -/
theorem statusWord_reg (s : State) (r : Regs) : State.statusWord { s with reg := r } = s.statusWord := rfl

/-- A write leaves every other register reading as before (R28). -/
theorem regRead_write_other {n m : Nat} (h : m ≠ n) (s : State) (v : Word) :
    State.regRead { s with reg := s.reg.write n v } m = s.regRead m := by
  by_cases hn : n ∈ [2, 3, 4, 7, 8, 9]
  · fin_cases hn <;> unfold State.regRead <;> split <;> simp_all [Regs.write, statusWord_reg]
  · rw [regsWrite_ignored hn]

/-- Settles O11: a write to another register than CMD is `Regs.write`, read back field by field. -/
theorem registerWritesStoreOnlyTheirField : Obligations.RegisterWritesStoreOnlyTheirField := by
  intro s n v
  refine ⟨regRead_unlisted s, by simp [State.regRead, -BitVec.toNat_setWidth, BitVec.toNat_setWidth_of_le], fun hn => ?_⟩
  refine ⟨{ s with reg := s.reg.write n v }, if_neg hn, rfl, fun m => ?_⟩
  split_ifs with hhalf hbyte
  · obtain ⟨rfl, hm⟩ := hhalf
    exact regRead_write_half (by simpa using hm) s v
  · obtain ⟨rfl, rfl⟩ := hbyte
    exact regRead_write_crcInit s v
  · by_cases hm : m = n
    · subst hm
      have hign : m ∉ [2, 3, 4, 7, 8, 9] := by
        simp at hhalf hbyte ⊢
        tauto
      rw [regsWrite_ignored hign]
    · exact regRead_write_other hm s v

/-! ### STATUS -/


/-- The bits from one place of the STATUS word on, where the word's width is written as the sum of its fields' widths, so
that the lemmas about `++` apply (R31). -/
theorem statusWord_extractLsb' (s : State) (start len : Nat) :
    s.statusWord.extractLsb' start len =
      BitVec.extractLsb' (n := 9 + 3 + 2 + 2 + 4 + 1 + 1 + 2 + 4 + 1 + 1 + 1 + 1) start len
        (0#9 ++ s.bitIndex ++ s.st.sda.code ++ s.st.scl.code ++ s.st.fsm.code ++ flag s.st.stretchWait ++
          s.st.errDir.code ++ s.st.errPhase.code ++ s.st.errCode.code ++ flag s.st.stopFail ++
          flag s.st.initialized ++ flag s.st.configured ++ flag s.st.busy) := rfl

/-- The STATUS word holds each field at its place, and 0 in bits 31 to 23 (R31). -/
theorem statusWord_fields (s : State) :
    s.statusWord.extractLsb' 0 1 = flag s.st.busy ∧ s.statusWord.extractLsb' 1 1 = flag s.st.configured ∧
    s.statusWord.extractLsb' 2 1 = flag s.st.initialized ∧ s.statusWord.extractLsb' 3 1 = flag s.st.stopFail ∧
    s.statusWord.extractLsb' 4 4 = s.st.errCode.code ∧ s.statusWord.extractLsb' 8 2 = s.st.errPhase.code ∧
    s.statusWord.extractLsb' 10 1 = s.st.errDir.code ∧ s.statusWord.extractLsb' 11 1 = flag s.st.stretchWait ∧
    s.statusWord.extractLsb' 12 4 = s.st.fsm.code ∧ s.statusWord.extractLsb' 16 2 = s.st.scl.code ∧
    s.statusWord.extractLsb' 18 2 = s.st.sda.code ∧ s.statusWord.extractLsb' 20 3 = s.bitIndex ∧
    s.statusWord.extractLsb' 23 9 = 0 := by
  simp (disch := omega) [statusWord_extractLsb', -Nat.reduceAdd, BitVec.extractLsb'_append_eq_of_le,
    BitVec.extractLsb'_append_eq_of_add_le]

/-- A one-bit field is its bit. -/
theorem getLsbD_of_extractLsb' {w : Word} {i : Nat} {b : Bool} (h : w.extractLsb' i 1 = flag b) : w.getLsbD i = b := by
  simpa [flag] using congrArg (·.getLsbD 0) h

theorem errCode_mem (e : ErrCode) : (e, e.code) ∈ errCodes := by cases e <;> decide

theorem phase_mem (ph : Phase) : (ph, ph.code) ∈ errPhases := by cases ph <;> decide

theorem dir_mem (d : Dir) : (d, d.code) ∈ errDirs := by cases d <;> decide

theorem fsmState_mem (f : FsmState) : (f, f.code) ∈ fsmStates := by cases f <;> decide

theorem lineState_mem (v : LineState) : (v, v.code) ∈ lineStates := by cases v <;> decide

/-- BIT_INDEX is BITI while a bit is written or read, else 0 (R31; log 8). -/
theorem bitIndex_eq (s : State) :
    s.bitIndex = if s.st.fsm = .writingBit ∨ s.st.fsm = .readingBit then s.work.biti else 0 := by
  unfold State.bitIndex
  cases s.st.fsm <;> simp

/-- Settles O12: the fields of the word, each at its place, and the tables of their codes. -/
theorem statusWordHoldsItsFields : Obligations.StatusWordHoldsItsFields := by
  intro s
  simp only [show s.regRead 1 = s.statusWord from rfl]
  obtain ⟨hbusy, hconf, hinit, hfail, hcode, hphase, hdir, hwait, hfsm, hscl, hsda, hbit, hzero⟩ := statusWord_fields s
  rw [hcode, hphase, hdir, hfsm, hscl, hsda, hbit, hzero]
  exact ⟨getLsbD_of_extractLsb' hbusy, getLsbD_of_extractLsb' hconf, getLsbD_of_extractLsb' hinit,
    getLsbD_of_extractLsb' hfail, getLsbD_of_extractLsb' hwait, errCode_mem _, phase_mem _, dir_mem _, fsmState_mem _,
    lineState_mem _, lineState_mem _, bitIndex_eq s, rfl⟩

/-! ### Pin actions -/

/-- The sequencer traced nothing and left both lines, or traced one action and left each line as that action does (R25). -/
def TracesLines (s t : State) : Prop :=
  (t.trace = s.trace ∧ ∀ l, t.lineOf l = s.lineOf l) ∨
  ∃ a, t.trace = s.trace ++ [a] ∧ ∀ l, t.lineOf l = lineAfter l (s.lineOf l) a

theorem lineOf_eq {s t : State} (hc : t.st.scl = s.st.scl) (hd : t.st.sda = s.st.sda) (l : Line) :
    t.lineOf l = s.lineOf l := by
  cases l
  · exact hc
  · exact hd

theorem TracesLines.of_quiet {s t : State} (ht : t.trace = s.trace) (hc : t.st.scl = s.st.scl)
    (hd : t.st.sda = s.st.sda) : TracesLines s t :=
  .inl ⟨ht, lineOf_eq hc hd⟩

/-- A read or a sleep changes no line. -/
theorem TracesLines.of_still {s t : State} (a : Action) (ha : ∀ l v, lineAfter l v a = v) (ht : t.trace = s.trace ++ [a])
    (hc : t.st.scl = s.st.scl) (hd : t.st.sda = s.st.sda) : TracesLines s t :=
  .inr ⟨a, ht, fun l => by rw [ha]; exact lineOf_eq hc hd l⟩

/-- Setting a line, with the action that says so traced. -/
theorem TracesLines.of_setLine {s : State} {l : Line} {v : LineState} {a : Action}
    (ha : ∀ l' u, lineAfter l' u a = if l = l' then v else u) : TracesLines s ((s.setLine l v).act a) :=
  .inr ⟨a, by simp, fun l' => (State.lineOf_setLine s l l' v).trans (ha l' _).symm⟩

theorem raises_tracesLines {k : Task} {s t : State} (h : raises k s t) : TracesLines s t := by
  obtain ⟨e, b, env, fresh, as, rfl, hwhy⟩ := h
  obtain ⟨sf, ts, hd, hr⟩ := State.raise_frame _ e
  rw [hr]
  obtain ⟨-, -, ⟨-, -, rfl, -⟩ | ⟨-, -, rfl⟩⟩ | ⟨-, -, -, -, rfl, -⟩ := hwhy
  · exact .of_still _ (fun _ _ => rfl) rfl rfl rfl
  · exact .of_quiet (List.append_nil _) rfl rfl
  · exact .of_quiet (List.append_nil _) rfl rfl

theorem runs_tracesLines {k : Task} {s t : State} (h : runs k s t) : TracesLines s t := by
  cases k with
  | pullup l => obtain ⟨-, rfl⟩ := h; exact .of_setLine fun _ _ => rfl
  | low l => obtain ⟨-, rfl⟩ := h; exact .of_setLine fun _ _ => rfl
  | reset l => cases h; exact .of_setLine fun _ _ => rfl
  | sleepHalf => cases h; exact .of_still _ (fun _ _ => rfl) rfl rfl rfl
  | sleepDelay => cases h; exact .of_still _ (fun _ _ => rfl) rfl rfl rfl
  | retry => cases h; exact .of_still _ (fun _ _ => rfl) rfl rfl rfl
  | poll => obtain ⟨-, env, fresh, ⟨-, rfl⟩ | ⟨-, -, rfl⟩⟩ := h <;> exact .of_still _ (fun _ _ => rfl) rfl rfl rfl
  | sampleAck => obtain ⟨-, a, env, fresh, -, rfl⟩ := h; exact .of_still _ (fun _ _ => rfl) rfl rfl rfl
  | sampleBit i => obtain ⟨-, d, env, fresh, -, rfl⟩ := h; exact .of_still _ (fun _ _ => rfl) rfl rfl rfl
  | checkAck => obtain ⟨-, rfl⟩ := h; exact .of_quiet rfl rfl rfl
  | writeData j n => obtain ⟨-, rfl⟩ | ⟨-, b, -, rfl⟩ := h <;> exact .of_quiet rfl rfl rfl
  | readData i n => obtain ⟨-, rfl⟩ | ⟨-, rfl⟩ := h <;> exact .of_quiet rfl rfl rfl
  | initDone => obtain ⟨-, rfl⟩ := h; exact .of_quiet rfl rfl rfl
  | decodeRaw => obtain ⟨raw, -, ⟨-, rfl⟩ | ⟨ws, -, -, rfl⟩⟩ := h <;> exact .of_quiet rfl rfl rfl
  | _ => cases h; exact .of_quiet rfl rfl rfl

/-- Settles O17: by the lines of the pseudocode, each of which raises or does what its rule says. -/
theorem onlyTracedPinActionsChangeTheLines : Obligations.OnlyTracedPinActionsChangeTheLines := by
  intro s t h
  unfold seqStep at h
  split at h
  · cases h; exact .inl ⟨rfl, fun _ => rfl⟩
  · next k ts _ =>
    have htr : TracesLines (s.setTasks ts) t := (runTask_cases h).elim raises_tracesLines runs_tracesLines
    exact htr

/-! ### The ACK sample -/

/-- The next scripted draw of SDA is the draw (R26; log 3). -/
theorem draw_sda_scripted {s : State} {d : Bool} {ds : List Bool} (h : s.env.sdaDraws = d :: ds) :
    s.draw .sda = (d, { s with env := { s.env with sdaDraws := ds } }) := by
  simp [State.draw, h]

/-- The ACK sample with an accepted pin traces and keeps the level (R103, R116). -/
theorem runSampleAck_accepted {s : State} (h : s.pinOk .sda = true) :
    runSampleAck s =
      .next (((s.level .sda).2.act (.rd .sda (s.level .sda).1)).setAckBit (s.level .sda).1) := by
  simp [runSampleAck, State.pinRead, h]

/-- Settles O19: the sample traces and keeps `State.level`, which is 0 or the next draw. -/
theorem readOfALineIsItsLevel : Obligations.ReadOfALineIsItsLevel := by
  intro s ts hts hok
  have hstep : seqStep s = runSampleAck (s.setTasks ts) := seqStep_cons hts
  rw [runSampleAck_accepted (s := s.setTasks ts) hok] at hstep
  obtain ⟨env, fresh, hl⟩ := (s.setTasks ts).level_frame .sda
  refine ⟨_, _, hstep, by simp [hl], rfl, by simp [hl], by simp [hl], fun hd => ?_, fun hd d ds hds => ?_⟩
  · rw [State.level_driven (s := s.setTasks ts) (l := .sda) hd]
    exact ⟨rfl, rfl⟩
  · rw [State.level_drawn (s := s.setTasks ts) (l := .sda) hd, draw_sda_scripted (s := s.setTasks ts) hds]
    exact ⟨rfl, rfl⟩

end Sys2Proof.Proofs
end

section
/-! Every written element stays inside its buffer (R9, R63, R142). -/

namespace Sys2Proof.Proofs

open Sys2Proof.Machine Sys2Proof.Safety

/-! ### Elements inside a buffer -/

/-- Every written element has an index below `len` (R63). -/
def Inside {w : Nat} (m : Memory w) (len : Nat) : Prop := ∀ e ∈ m, e.1 < len

theorem Inside.set {w : Nat} {m : Memory w} {len i : Nat} (h : Inside m len) (hi : i < len) (v : BitVec w) :
    Inside (m.set i v) len := by
  intro e he
  obtain rfl | he := Memory.mem_set he
  · exact hi
  · exact h e he

theorem Inside.writeFrom {w : Nat} {m : Memory w} {len : Nat} {vs : List (BitVec w)} (h : Inside m len)
    (hl : vs.length ≤ len) : Inside (m.writeFrom 0 vs) len := by
  intro e he
  obtain he | ⟨-, he⟩ := Memory.mem_writeFrom he
  · exact h e he
  · omega

/-- `encode_command` gives 2 + 3n bytes (R174). -/
theorem encodeCommand_length (cmd : Half) (args : List Half) (init : Byte) :
    (encodeCommand cmd args init).length = 2 + 3 * args.length := by
  induction args with
  | nil => rfl
  | cons a args ih => simp [encodeCommand, wordGroup] at ih ⊢; omega

/-! ### Lines whose stores fit -/

/-- What each of the lines will store fits its buffer. -/
def TasksFit (p : Platform) (o : Opn) (ts : List Task) : Prop := ts.all (taskFits p o) = true

section
variable {p : Platform} {o : Opn}

theorem tasksFit_nil : TasksFit p o [] := rfl

@[simp] theorem tasksFit_cons {k : Task} {ts : List Task} :
    TasksFit p o (k :: ts) ↔ taskFits p o k = true ∧ TasksFit p o ts := by
  simp [TasksFit]

@[simp] theorem tasksFit_append {ts us : List Task} : TasksFit p o (ts ++ us) ↔ TasksFit p o ts ∧ TasksFit p o us := by
  simp only [TasksFit, List.all_append, Bool.and_eq_true]

theorem writeBit_tasksFit (b : Byte) (i : BitVec 3) : TasksFit p o (writeBit b i) := by
  unfold writeBit sdaTo
  cases b.getLsbD i.toNat <;> rfl

theorem writeByte_tasksFit (b : Byte) : TasksFit p o (writeByte b) := by
  have hack : TasksFit p o ackPhase := rfl
  simp [writeByte, bitsDown, writeBit_tasksFit, hack]

theorem readByte_tasksFit (ack : Bool) : TasksFit p o (readByte ack) := by
  cases ack <;> rfl

theorem txWrite_tasksFit (a : Addr) (n : Nat) : TasksFit p o (txWrite a n) := by
  have hstart : TasksFit p o start := rfl
  have hstop : TasksFit p o stop := rfl
  simp [txWrite, hstart, hstop, writeByte_tasksFit, taskFits]

/-- A read transaction stores one byte per byte it reads, so it fits when the count does (R152). -/
theorem txRead_tasksFit (a : Addr) {n : Nat} (hn : n ≤ p.bufLen) : TasksFit p o (txRead a n) := by
  have hstart : TasksFit p o start := rfl
  have hstop : TasksFit p o stop := rfl
  simp [txRead, hstart, hstop, writeByte_tasksFit, taskFits, hn]

/-- CLEANUP stores nothing (R205). -/
theorem raise_tasksFit (s : State) (e : ErrCode) : TasksFit p o (s.raise e).work.tasks := by
  obtain ⟨-, h⟩ | ⟨ph, dir, -, h⟩ | ⟨dir, -, h⟩ | ⟨e0, ph, dir, -, h⟩ := s.raise_cases e <;> rw [h] <;> rfl

/-- A line whose stores fit leads only to lines whose stores fit: the byte loop of a read stores below its count
(R152). -/
theorem runTask_tasksFit {k : Task} {s t : State} (h : runTask k s = .next t) (hk : taskFits p o k = true)
    (hs : TasksFit p o s.work.tasks) : TasksFit p o t.work.tasks := by
  obtain ⟨e, b, env, fresh, as, rfl, -⟩ | h := runTask_cases h
  · exact raise_tasksFit _ e
  cases k with
  | readData i n =>
    have hn : n ≤ p.bufLen := by simpa [taskFits] using hk
    obtain ⟨-, rfl⟩ | ⟨hi, rfl⟩ := h
    · exact hs
    · have hloop : TasksFit p o [.storeByte i, .readData (i + 1) n] := by
        simp [taskFits, tasksFit_nil, hn]; omega
      exact tasksFit_append.2 ⟨tasksFit_append.2 ⟨readByte_tasksFit _, hloop⟩, hs⟩
  | writeData j n =>
    obtain ⟨-, rfl⟩ | ⟨-, b, -, rfl⟩ := h
    · exact hs
    · exact tasksFit_append.2 ⟨tasksFit_append.2 ⟨writeByte_tasksFit b, rfl⟩, hs⟩
  | pullup l => obtain ⟨-, rfl⟩ := h; simpa using hs
  | low l => obtain ⟨-, rfl⟩ := h; simpa using hs
  | reset l => cases h; simpa [State.pinReset] using hs
  | waitHigh => cases h; exact tasksFit_cons.2 ⟨rfl, hs⟩
  | poll =>
    obtain ⟨-, env, fresh, ⟨-, rfl⟩ | ⟨-, -, rfl⟩⟩ := h
    · exact hs
    · exact tasksFit_append.2 ⟨rfl, hs⟩
  | sampleAck => obtain ⟨-, a, env, fresh, -, rfl⟩ := h; exact hs
  | sampleBit i => obtain ⟨-, d, env, fresh, -, rfl⟩ := h; exact hs
  | checkAck => obtain ⟨-, rfl⟩ := h; exact hs
  | initDone => obtain ⟨-, rfl⟩ := h; exact tasksFit_nil
  | releaseDone => cases h; exact tasksFit_nil
  | decodeRaw => obtain ⟨raw, -, ⟨-, rfl⟩ | ⟨ws, -, -, rfl⟩⟩ := h <;> exact tasksFit_nil
  | finish e ph d => cases h; exact tasksFit_nil
  | _ => cases h; exact hs

end

/-! ### What a line stores -/

/-- Beyond `runTask_writes`: a line leaves the platform and the sampled operands alone, stores into RXBUF only as the store
of a byte, which stores SHIFT at its index, and into WORDBUF only at DCR's end, which stores OPN.n words from index 0 on
(R152, R182). -/
theorem runTask_stores {k : Task} {s t : State} (h : runTask k s = .next t) :
    t.plat = s.plat ∧ t.work.opn = s.work.opn ∧
    (t.rxbuf = s.rxbuf ∨ ∃ i, k = .storeByte i ∧ t.rxbuf = s.rxbuf.set i s.work.shift) ∧
    (t.wordbuf = s.wordbuf ∨
      ∃ ws, k = .decodeRaw ∧ ws.length = s.work.opn.n.toNat ∧ t.wordbuf = s.wordbuf.writeFrom 0 ws) := by
  obtain ⟨e, b, env, fresh, as, rfl, -⟩ | h := runTask_cases h
  · obtain ⟨sf, ts, hd, hr⟩ := State.raise_frame _ e
    rw [hr]
    exact ⟨rfl, rfl, .inl rfl, .inl rfl⟩
  cases k with
  | storeByte i => cases h; exact ⟨rfl, rfl, .inr ⟨i, rfl, rfl⟩, .inl rfl⟩
  | decodeRaw =>
    obtain ⟨raw, -, ⟨-, rfl⟩ | ⟨ws, -, hws, rfl⟩⟩ := h
    · exact ⟨rfl, rfl, .inl rfl, .inl rfl⟩
    · exact ⟨rfl, rfl, .inl rfl, .inr ⟨ws, rfl, hws, rfl⟩⟩
  | pullup l => obtain ⟨-, rfl⟩ := h; simp
  | low l => obtain ⟨-, rfl⟩ := h; simp
  | reset l => cases h; simp [State.pinReset]
  | poll => obtain ⟨-, env, fresh, ⟨-, rfl⟩ | ⟨-, -, rfl⟩⟩ := h <;> exact ⟨rfl, rfl, .inl rfl, .inl rfl⟩
  | sampleAck => obtain ⟨-, a, env, fresh, -, rfl⟩ := h; exact ⟨rfl, rfl, .inl rfl, .inl rfl⟩
  | sampleBit i => obtain ⟨-, d, env, fresh, -, rfl⟩ := h; exact ⟨rfl, rfl, .inl rfl, .inl rfl⟩
  | checkAck => obtain ⟨-, rfl⟩ := h; exact ⟨rfl, rfl, .inl rfl, .inl rfl⟩
  | writeData j n => obtain ⟨-, rfl⟩ | ⟨-, b, -, rfl⟩ := h <;> exact ⟨rfl, rfl, .inl rfl, .inl rfl⟩
  | readData i n => obtain ⟨-, rfl⟩ | ⟨-, rfl⟩ := h <;> exact ⟨rfl, rfl, .inl rfl, .inl rfl⟩
  | initDone => obtain ⟨-, rfl⟩ := h; exact ⟨rfl, rfl, .inl rfl, .inl rfl⟩
  | _ => cases h; exact ⟨rfl, rfl, .inl rfl, .inl rfl⟩

/-! ### What the legality check guarantees -/

/-- A transfer that is not refused (R142). -/
theorem refusesTransfer_eq_false {s : State} {n : Half} :
    s.refusesTransfer n = false ↔ s.st.initialized = true ∧ n.toNat ≤ s.plat.bufLen := by
  simp [State.refusesTransfer]

/-- A CRC8 that is not refused (R142). -/
theorem refusesCrc8_eq_false {s : State} {n : Half} : s.refusesCrc8 n = false ↔ n.toNat ≤ s.plat.bufLen := by
  simp [State.refusesCrc8]

/-- An ENCODE that is not refused (R142). -/
theorem refusesEncode_eq_false {s : State} {n : Half} :
    s.refusesEncode n = false ↔ n.toNat ≤ s.plat.wbufLen ∧ encodedLen n ≤ s.plat.bufLen := by
  simp [State.refusesEncode]

/-- A DECODE that is not refused (R142). -/
theorem refusesDecode_eq_false {s : State} {n : Half} :
    s.refusesDecode n = false ↔ n.toNat ≤ s.plat.wbufLen ∧ rawLen n ≤ s.plat.bufLen := by
  simp [State.refusesDecode]

/-- A DCR that is not refused (R142). -/
theorem refusesDcr_eq_false {s : State} {n : Half} :
    s.refusesDcr n = false ↔ s.st.initialized = true ∧ s.refusesDecode n = false := by
  simp [State.refusesDcr]

/-- The operands of a command pass the length conditions of R142. -/
def OperandsFit (p : Platform) : Instr → Prop
  | .configure => True
  | .init => True
  | .release => True
  | .write _ n => n.toNat ≤ p.bufLen
  | .read _ n => n.toNat ≤ p.bufLen
  | .crc8 n => n.toNat ≤ p.bufLen
  | .encode n => n.toNat ≤ p.wbufLen ∧ encodedLen n ≤ p.bufLen
  | .decode n => n.toNat ≤ p.wbufLen ∧ rawLen n ≤ p.bufLen
  | .dcr _ n => n.toNat ≤ p.wbufLen ∧ rawLen n ≤ p.bufLen

/-- Every command is issued with a legality check that holds its operands to the length conditions (R140, R142). -/
theorem exec_eq_issue (i : Instr) (s : State) :
    ∃ refused a n run, exec i s = issue refused a n run s ∧ (refused = false → OperandsFit s.plat i) := by
  cases i <;>
    simp only [exec, execConfigure, execInit, execRelease, execWrite, execRead, execCrc8, execEncode, execDecode,
      execDcr] <;>
    refine ⟨_, _, _, _, rfl, fun h => ?_⟩
  case write | read => exact (refusesTransfer_eq_false.1 h).2
  case crc8 => exact refusesCrc8_eq_false.1 h
  case encode => exact refusesEncode_eq_false.1 h
  case decode => exact refusesDecode_eq_false.1 h
  case dcr => exact refusesDecode_eq_false.1 (refusesDcr_eq_false.1 h).2
  case configure | init | release => trivial

/-- A command that is not turned away passed the length conditions of R142. -/
theorem exec_operandsFit {i : Instr} {s t : State} (h : exec i s = .next t) :
    t = s.turnedAway ∨ OperandsFit s.plat i := by
  obtain ⟨refused, a, n, run, he, hfit⟩ := exec_eq_issue i s
  obtain ⟨-, ⟨-, ht⟩ | ⟨hr, -⟩⟩ := issue_cases (he.symm.trans h)
  · exact .inl ht
  · exact .inr (hfit hr)

/-! ### The invariant -/

theorem boundsInv_iff {s : State} : BoundsInv s ↔
    s.plat.wf = true ∧ TasksFit s.plat s.work.opn s.work.tasks ∧ Inside s.txbuf s.plat.bufLen ∧
      Inside s.rxbuf s.plat.bufLen ∧ Inside s.wordbuf s.plat.wbufLen := Iff.rfl

/-- R9: both byte buffers hold a command word. -/
theorem two_le_bufLen {p : Platform} (h : p.wf = true) : 2 ≤ p.bufLen := by
  simp [Platform.wf] at h
  omega

theorem runTask_boundsInv {k : Task} {ts : List Task} {s t : State} (hts : s.work.tasks = k :: ts)
    (h : runTask k (s.setTasks ts) = .next t) (hs : BoundsInv s) : BoundsInv t := by
  obtain ⟨hp, hf, htx, hrx, hwb⟩ := boundsInv_iff.1 hs
  obtain ⟨hk, hf⟩ := tasksFit_cons.1 (hts ▸ hf)
  have hft : TasksFit s.plat s.work.opn t.work.tasks := runTask_tasksFit h hk hf
  obtain ⟨-, -, ht, -⟩ := runTask_writes h
  obtain ⟨hpt, ho, hr, hw⟩ := runTask_stores h
  simp only [State.setTasks_plat, State.setTasks_work, State.setTasks_txbuf, State.setTasks_rxbuf,
    State.setTasks_wordbuf] at hpt ho ht hr hw
  rw [boundsInv_iff, hpt, ho, ht]
  refine ⟨hp, hft, htx, ?_, ?_⟩
  · obtain hr | ⟨i, rfl, hr⟩ := hr <;> rw [hr]
    · exact hrx
    · exact hrx.set (by simpa [taskFits] using hk) _
  · obtain hw | ⟨ws, rfl, hl, hw⟩ := hw <;> rw [hw]
    · exact hwb
    · exact hwb.writeFrom (by simpa [taskFits, hl] using hk)

/-- A finished command has nothing left to store. -/
theorem finish_boundsInv {s : State} (e : ErrCode) (ph : Phase) (d : Dir) (hp : s.plat.wf = true)
    (htx : Inside s.txbuf s.plat.bufLen) (hrx : Inside s.rxbuf s.plat.bufLen) (hwb : Inside s.wordbuf s.plat.wbufLen) :
    BoundsInv (s.finish e ph d) :=
  ⟨hp, rfl, htx, hrx, hwb⟩

theorem exec_boundsInv {i : Instr} {s t : State} (h : exec i s = .next t) (hs : BoundsInv s) : BoundsInv t := by
  obtain ⟨hp, -, htx, hrx, hwb⟩ := boundsInv_iff.1 hs
  have haway : BoundsInv s.turnedAway := finish_boundsInv _ _ _ hp htx hrx hwb
  obtain rfl | hfit := exec_operandsFit h
  · exact haway
  obtain ⟨-, rfl | h⟩ := exec_cases h
  · exact haway
  cases i with
  | configure =>
    simp only [runConfigure] at h
    split_ifs at h <;> cases h <;> exact finish_boundsInv _ _ _ hp htx hrx hwb
  | init => cases h; exact ⟨hp, rfl, htx, hrx, hwb⟩
  | release =>
    cases h
    have hf (c : Bool) {p o} : TasksFit p o (releaseTasks c) := by cases c <;> rfl
    exact ⟨hp, hf _, htx, hrx, hwb⟩
  | write a n => cases h; exact ⟨hp, tasksFit_append.2 ⟨txWrite_tasksFit _ _, rfl⟩, htx, hrx, hwb⟩
  | read a n => cases h; exact ⟨hp, tasksFit_append.2 ⟨txRead_tasksFit _ hfit, rfl⟩, htx, hrx, hwb⟩
  | crc8 n =>
    simp only [runCrc8] at h
    split at h <;> cases h
    exact finish_boundsInv _ _ _ hp htx hrx hwb
  | encode n =>
    simp only [runEncode] at h
    obtain ⟨ws, hr, ha⟩ | ⟨j, -, ha⟩ := (s.accepted 0 n).wordArgs_cases n.toNat <;>
      simp only [State.accepted_work, ha] at h <;> cases h
    have hl : ws.length = n.toNat := Memory.readFrom_length hr
    exact finish_boundsInv _ _ _ hp (htx.writeFrom (by rw [encodeCommand_length, hl]; exact hfit.2)) hrx hwb
  | decode n =>
    obtain ⟨raw, -, ⟨-, rfl⟩ | ⟨ws, -, hl, rfl⟩⟩ := State.decodeAndFinish_cases h
    · exact finish_boundsInv _ _ _ hp htx hrx hwb
    · exact finish_boundsInv _ _ _ hp htx hrx (hwb.writeFrom (hl.trans_le hfit.1))
  | dcr a n =>
    cases h
    obtain ⟨hwords, hraw⟩ := hfit
    have hend {o : Opn} (ho : o.n = n) : TasksFit s.plat o [.decodeRaw] := by
      simpa [taskFits, tasksFit_nil, ho] using hwords
    have hlines : TasksFit s.plat ((s.accepted a n).work.opn) (dcrTasks (s.accepted a n).work.opn) :=
      tasksFit_append.2 ⟨tasksFit_append.2
        ⟨tasksFit_append.2 ⟨txWrite_tasksFit _ _, rfl⟩, txRead_tasksFit _ hraw⟩, hend rfl⟩
    exact ⟨hp, hlines, htx.writeFrom (two_le_bufLen hp), hrx, hwb⟩

theorem putElement_boundsInv {s : State} {b : Buf} {i : Nat} (hs : BoundsInv s) (hi : i < s.bufSize b) (v : Word) :
    BoundsInv (s.putElement b i v) := by
  obtain ⟨hp, hf, htx, hrx, hwb⟩ := boundsInv_iff.1 hs
  cases b with
  | tx => exact ⟨hp, hf, htx.set hi _, hrx, hwb⟩
  | rx => exact ⟨hp, hf, htx, hrx.set hi _, hwb⟩
  | wb => exact ⟨hp, hf, htx, hrx, hwb.set hi _⟩

theorem runHostOp_boundsInv {o : HostOp} {s t : State} (h : runHostOp o s = .next t) (hs : BoundsInv s) :
    BoundsInv t := by
  have hnext : BoundsInv s.nextStmt := hs
  obtain ⟨hp, -, htx, hrx, hwb⟩ := boundsInv_iff.1 hs
  obtain ⟨w, -, hw⟩ | ⟨-, rfl⟩ | ⟨n, v, -, -, rfl⟩ | ⟨b, i, v, -, -, hi, rfl⟩ | ⟨x, v, fresh, rfl⟩ |
    ⟨pc, halted, peers, rfl⟩ := runHostOp_effects h
  · obtain ⟨-, rfl⟩ | ⟨i, hi⟩ := issueWord_cases hw
    · exact finish_boundsInv _ _ _ hp htx hrx hwb
    · exact exec_boundsInv hi hnext
  · exact ⟨hp, rfl, nofun, nofun, nofun⟩
  · exact hs
  · exact putElement_boundsInv hnext (by cases b <;> exact hi) v
  · exact hs
  · exact hs

/-- Settles O57: the legality check of R142 bounds what a command's lines store, and no later line stores further. -/
theorem stepKeepsElementsInsideTheBuffers : Obligations.StepKeepsElementsInsideTheBuffers := fun _ _ hs h =>
  step_keeps (fun _ _ _ => id) (fun _ _ _ _ _ hts => runTask_boundsInv hts) (fun _ _ _ => runHostOp_boundsInv) h hs

end Sys2Proof.Proofs
end

section
/-! The host's accesses of buffers and registers (R61, R63, R66, R68, R75, R76), reads of unwritten elements, and the
interleaving of host and sequencer (R72). -/

namespace Sys2Proof.Proofs

open Sys2Proof.Machine Sys2Proof.Safety

/-! ### Buffer accesses, case by case -/

/-- The buffers that a running command may change (R76). -/
theorem racy_iff {b : Buf} : b.racy = true ↔ b = .rx ∨ b = .wb := by
  cases b <;> simp [Buf.racy]

section
variable {s : State} {b : Buf} {i t : Nat}

/-- While BUSY = 0 a write in range stores its element (R61). -/
theorem bufWrite_inRange (hb : s.st.busy = false) (hi : i < s.bufSize b) (v : Word) :
    bufWrite b i v s = .next (s.putElement b i v) := by
  simp [bufWrite, hb, hi]

/-- While BUSY = 0 a write out of range is ignored (R63). -/
theorem bufWrite_outOfRange (hb : s.st.busy = false) (hi : s.bufSize b ≤ i) (v : Word) :
    bufWrite b i v s = .next s := by
  simp [bufWrite, hb, hi]

/-- While BUSY = 1 a write is a fault, whatever its index (R75; log 7). -/
theorem bufWrite_busy (hb : s.st.busy = true) (v : Word) : bufWrite b i v s = .fault .bufferWriteWhileBusy := by
  simp [bufWrite, hb]

/-- A read of a buffer that a running command may change gives a free value (R76; log 7). -/
theorem bufRead_free (hf : (s.st.busy && b.racy) = true) :
    bufRead b i t s = .next { s.setVar t (Config.busyRead s.fresh) with fresh := s.fresh + 1 } := by
  simp only [bufRead, hf, if_true]

/-- Any other read gives 0 out of range (R63). -/
theorem bufRead_outOfRange (hf : (s.st.busy && b.racy) = false) (hi : s.bufSize b ≤ i) :
    bufRead b i t s = .next (s.setVar t 0) := by
  simp [bufRead, hf, hi]

/-- Any other read in range gives the element, if it is written (R61). -/
theorem bufRead_written {v : Word} (hf : (s.st.busy && b.racy) = false) (hi : i < s.bufSize b)
    (hv : s.element b i = some v) : bufRead b i t s = .next (s.setVar t v) := by
  simp [bufRead, hf, hi, hv]

/-- Any other read in range faults on an unwritten element (R66). -/
theorem bufRead_unwritten (hf : (s.st.busy && b.racy) = false) (hi : i < s.bufSize b) (hv : s.element b i = none) :
    bufRead b i t s = .fault (.unwrittenBuffer b i) := by
  simp [bufRead, hf, hi, hv]

end

@[simp] theorem bufSize_putElement (s : State) (b c : Buf) (i : Nat) (v : Word) :
    (s.putElement b i v).bufSize c = s.bufSize c := by
  cases c <;> simp [State.bufSize]

/-- A stored element reads back its low 8 or 16 bits, zero-extended (R61). -/
theorem element_putElement_self (s : State) (b : Buf) (i : Nat) (v : Word) :
    (s.putElement b i v).element b i = some (if b = .wb then v &&& 0xFFFF else v &&& 0xFF) := by
  cases b <;> simp only [State.putElement, State.element, Memory.get?_set_self, Option.map_some, reduceCtorEq, if_true,
    if_false, setWidth_byte, setWidth_half]

/-- Settles O13: by the accesses' cases and read after write. -/
theorem hostBufferAccessesStoreAndReadElements : Obligations.HostBufferAccessesStoreAndReadElements := by
  intro s b i t v hb
  refine ⟨fun hi => ⟨_, bufWrite_inRange hb hi v, ?_, fun c j => State.element_putElement, ?_⟩, fun hi => ?_⟩
  · exact bufRead_written (by simp [hb]) (by rwa [bufSize_putElement]) (element_putElement_self s b i v)
  · cases b <;> rfl
  · exact ⟨bufWrite_outOfRange hb hi v, bufRead_outOfRange (by simp [hb]) hi⟩

/-! ### Unwritten elements -/

/-- Reading a range names the first of its elements that nothing has written (R66). -/
theorem readFrom_firstUnwritten {w : Nat} {m : Memory w} {count start i : Nat} (hs : start ≤ i) (hi : i < start + count)
    (hn : m.get? i = none) (hw : ∀ j, start ≤ j → j < i → (m.get? j).isSome) : m.readFrom count start = .error i := by
  induction count generalizing start with
  | zero => omega
  | succ count ih =>
    rcases hs.eq_or_lt with rfl | hlt
    · simp [Memory.readFrom, hn]
    · obtain ⟨v, hv⟩ := Option.isSome_iff_exists.1 (hw start le_rfl hlt)
      have hrest := ih hlt (by omega) fun j hj => hw j (by omega)
      simp [Memory.readFrom, hv, hrest]

theorem exec_crc8_unwritten {s : State} {n : Half} {i : Nat} (hb : s.st.busy = false) (hn : n.toNat ≤ s.plat.bufLen)
    (hr : s.txbuf.readFrom n.toNat 0 = .error i) : exec (.crc8 n) s = .fault (.unwrittenBuffer .tx i) := by
  have hok : s.refusesCrc8 n = false := refusesCrc8_eq_false.2 hn
  simp [exec, execCrc8, hok, issue_accepts hb, runCrc8, State.txBytes, hr]

theorem exec_encode_unwritten {s : State} {n : Half} {i : Nat} (hb : s.st.busy = false) (hn : n.toNat ≤ s.plat.wbufLen)
    (hl : 2 + 3 * n.toNat ≤ s.plat.bufLen) (hr : s.wordbuf.readFrom n.toNat 0 = .error i) :
    exec (.encode n) s = .fault (.unwrittenBuffer .wb i) := by
  have hok : s.refusesEncode n = false := refusesEncode_eq_false.2 ⟨hn, hl⟩
  simp [exec, execEncode, hok, issue_accepts hb, runEncode, State.wordArgs, hr]

theorem exec_decode_unwritten {s : State} {n : Half} {i : Nat} (hb : s.st.busy = false) (hn : n.toNat ≤ s.plat.wbufLen)
    (hl : 3 * n.toNat ≤ s.plat.bufLen) (hr : s.rxbuf.readFrom (rawLen n) 0 = .error i) :
    exec (.decode n) s = .fault (.unwrittenBuffer .rx i) := by
  have hok : s.refusesDecode n = false := refusesDecode_eq_false.2 ⟨hn, hl⟩
  simp [exec, execDecode, hok, issue_accepts hb, State.decodeAndFinish, State.rxBytes, hr]

/-- Settles O14: the host's read faults by itself, and the commands read their range with `Memory.readFrom`, which names
the first unwritten element. -/
theorem unwrittenElementsFault : Obligations.UnwrittenElementsFault := by
  refine ⟨fun s b i t hfree hi hv => ?_, fun s n i hb hn hi hv hw => ?_, fun s n i hb hn hl hi hv hw => ?_,
    fun s n i hb hn hl hi hv hw => ?_, fun s j n ts hts hj hv => ?_⟩
  · rw [← racy_iff, ← Bool.and_eq_true, Bool.not_eq_true] at hfree
    exact bufRead_unwritten hfree hi hv
  · exact exec_crc8_unwritten hb hn (readFrom_firstUnwritten (Nat.zero_le i) (by omega) hv fun j _ => hw j)
  · exact exec_encode_unwritten hb hn hl (readFrom_firstUnwritten (Nat.zero_le i) (by omega) hv fun j _ => hw j)
  · exact exec_decode_unwritten hb hn hl
      (readFrom_firstUnwritten (Nat.zero_le i) (by rwa [Nat.zero_add, rawLen]) hv fun j _ => hw j)
  · simp [seqStep_cons hts, runTask, runWriteData, hj, hv]

/-! ### The frame of a host access -/

/-- The host's position plays no part in what a register reads. -/
theorem regRead_nextStmt (s : State) (r : Regs) (m : Nat) :
    State.regRead { s.nextStmt with reg := r } m = State.regRead { s with reg := r } m := rfl

/-- Settles O48: a host statement that issues no command and is no reset writes one register, stores one element, assigns
one variable, or changes only the program's position and the list of other instances. -/
theorem hostAccessFrame : Obligations.HostAccessFrame := by
  intro o s t hcmd hreset h
  obtain ⟨w, ho, -⟩ | ⟨ho, -⟩ | ⟨n, v, rfl, -, rfl⟩ | ⟨b, i, v, rfl, -, -, rfl⟩ | ⟨x, v, fresh, rfl⟩ |
    ⟨pc, halted, peers, rfl⟩ := runHostOp_effects h
  · exact absurd ho (hcmd w)
  · exact absurd ho hreset
  · refine ⟨⟨rfl, rfl, rfl, rfl, rfl, rfl⟩, fun hn => absurd rfl (hn n v), ?_, fun _ => ⟨rfl, rfl, rfl⟩, nofun⟩
    rintro _ _ ⟨⟩ m hm
    rw [regRead_nextStmt, regRead_write_other hm]
  · refine ⟨by simp, fun _ => by simp, nofun, fun hn => absurd rfl (hn b i v), ?_⟩
    rintro _ _ _ ⟨⟩ c j hcj
    exact State.element_putElement hcj
  · exact ⟨⟨rfl, rfl, rfl, rfl, rfl, rfl⟩, fun _ => rfl, fun _ _ _ _ _ => rfl, fun _ => ⟨rfl, rfl, rfl⟩,
      fun _ _ _ _ _ _ _ => rfl⟩
  · exact ⟨⟨rfl, rfl, rfl, rfl, rfl, rfl⟩, fun _ => rfl, fun _ _ _ _ _ => rfl, fun _ => ⟨rfl, rfl, rfl⟩,
      fun _ _ _ _ _ _ _ => rfl⟩

/-! ### Turns -/

/-- The next scripted turn is the turn (R72; log 4). -/
theorem takeTurn_scripted {s : State} {a : Agent} {as : List Agent} (h : s.env.turns = a :: as) :
    s.takeTurn = (a, { s with env := { s.env with turns := as } }) := by
  simp [State.takeTurn, h]

/-- Settles O9: by the cases of `step`. -/
theorem stepWaitsOrTakesTurns : Obligations.StepWaitsOrTakesTurns := by
  intro s
  refine ⟨fun hb hn => ?_, fun hb hn => step_sequencer hb hn, fun o as hb ho ht => ?_, fun o as hb ho ht => ?_,
    fun o hb ho => ?_⟩
  · simp [step, show s.hostOp? = none from hn, hb]
  · simp [step, ho, hb, takeTurn_scripted ht]
  · simp [step, ho, hb, takeTurn_scripted ht]
  · simp [step, ho, hb]

/-! ### Accesses while BUSY = 1 -/

/-- Every command issued while BUSY = 1 is a fault (R214). -/
theorem exec_busy {s : State} (hb : s.st.busy = true) (i : Instr) : exec i s = .fault .commandWhileBusy := by
  obtain ⟨refused, a, n, run, he, -⟩ := exec_eq_issue i s
  exact he.trans (issue_busy hb)

/-- So is every word written to CMD, a command's or not (R214; log 17). -/
theorem issueWord_busy {s : State} (hb : s.st.busy = true) (w : Word) : issueWord w s = .fault .commandWhileBusy := by
  unfold issueWord
  split
  · exact exec_busy hb _
  · simp [issueIllegal, hb]

/-- Settles O15. -/
theorem writesWhileBusyFault : Obligations.WritesWhileBusyFault := fun _ hb =>
  ⟨fun _ _ v => bufWrite_busy hb v, fun w => issueWord_busy hb w⟩

/-- Settles O16: RXBUF and WORDBUF give a free value, TXBUF follows the rules of an idle block. -/
theorem readsWhileBusyAreDefinedOrFree : Obligations.ReadsWhileBusyAreDefinedOrFree := by
  intro s t hb
  refine ⟨fun b i hr => ⟨_, bufRead_free (by simp [hb, racy_iff, hr])⟩, fun i e hi he => ?_, fun i hi => ?_, fun _ => rfl⟩
  · exact bufRead_written (by simp [Buf.racy]) hi (by simp [State.element, he])
  · exact bufRead_outOfRange (by simp [Buf.racy]) hi

end Sys2Proof.Proofs
end

section
/-! The encoding of commands (R81, R82, R84, R85, R88, R90): a word is known by its four fields, the decoder picks the
first matching row of the opcode map, and a row matches exactly the words of its command. -/

namespace Sys2Proof.Proofs

open Sys2Proof.Machine Sys2Proof.Safety

/-! ### The fields of a word -/

/-- The fields of format C cover the word (R81). -/
theorem word_eq_iff {v w : Word} :
    v = w ↔ opcOf v = opcOf w ∧ addrOf v = addrOf w ∧ rsvOf v = rsvOf w ∧ countOf v = countOf w := by
  refine ⟨by rintro rfl; simp, fun ⟨ho, ha, hr, hn⟩ => BitVec.eq_of_getLsbD_eq fun i hi => ?_⟩
  have hob := congrArg (·.getLsbD i) ho
  have hab := congrArg (·.getLsbD (i - 8)) ha
  have hnb := congrArg (·.getLsbD (i - 16)) hn
  simp only [opcOf, addrOf, countOf, BitVec.getLsbD_extractLsb'] at hob hab hnb
  obtain h | h | rfl | h : i < 8 ∨ (8 ≤ i ∧ i < 15) ∨ i = 15 ∨ 16 ≤ i := by omega
  · simpa [h] using hob
  · simpa [h, show i - 8 < 7 by omega] using hab
  · exact hr
  · simpa [h, show i - 16 < 16 by omega] using hnb

/-! A field of a conjunction, and of a word given as a number. -/

@[simp] theorem opcOf_and (v w : Word) : opcOf (v &&& w) = opcOf v &&& opcOf w := BitVec.extractLsb'_and

@[simp] theorem addrOf_and (v w : Word) : addrOf (v &&& w) = addrOf v &&& addrOf w := BitVec.extractLsb'_and

@[simp] theorem rsvOf_and (v w : Word) : rsvOf (v &&& w) = (rsvOf v && rsvOf w) := BitVec.getLsbD_and

@[simp] theorem countOf_and (v w : Word) : countOf (v &&& w) = countOf v &&& countOf w := BitVec.extractLsb'_and

@[simp] theorem opcOf_ofNat (k : Nat) : opcOf (BitVec.ofNat 32 k) = BitVec.ofNat 8 k := by
  apply BitVec.eq_of_toNat_eq
  simp [opcOf]

@[simp] theorem addrOf_ofNat (k : Nat) : addrOf (BitVec.ofNat 32 k) = BitVec.ofNat 7 (k / 2 ^ 8) := by
  apply BitVec.eq_of_toNat_eq
  simp [addrOf, Nat.shiftRight_eq_div_pow]
  omega

@[simp] theorem countOf_ofNat (k : Nat) : countOf (BitVec.ofNat 32 k) = BitVec.ofNat 16 (k / 2 ^ 16) := by
  apply BitVec.eq_of_toNat_eq
  simp [countOf, Nat.shiftRight_eq_div_pow]
  omega

@[simp] theorem rsvOf_ofNat (k : Nat) : rsvOf (BitVec.ofNat 32 k) = decide (k / 2 ^ 15 % 2 = 1) := by
  rw [rsvOf, BitVec.getLsbD_ofNat, Nat.testBit_eq_decide_div_mod_eq]
  rfl

/-! ### The rows of the opcode map -/

/-- The operands of a row are the word's fields (R82). -/
theorem opcodeRows_fields (w : Word) :
    opcodeRows w =
      [(0xFFFFFFFF, 0x00000001, .configure), (0xFFFFFFFF, 0x00000002, .init), (0xFFFFFFFF, 0x00000003, .release),
       (0x000080FF, 0x00000004, .write (addrOf w) (countOf w)), (0x000080FF, 0x00000005, .read (addrOf w) (countOf w)),
       (0x0000FFFF, 0x00000006, .crc8 (countOf w)), (0x0000FFFF, 0x00000007, .encode (countOf w)),
       (0x0000FFFF, 0x00000008, .decode (countOf w)), (0x000080FF, 0x00000009, .dcr (addrOf w) (countOf w))] := rfl

/-- The words that match a row are the words of the row's command (R84): mask and match fix the fields that the command
fixes. -/
theorem row_matches_iff {w : Word} {r : Word × Word × Instr} (hr : r ∈ opcodeRows w) :
    w &&& r.1 = r.2.1 ↔ encode r.2.2 = w := by
  have ho : opcOf w &&& 0xFF = opcOf w := BitVec.and_allOnes
  have ha : addrOf w &&& 0x7F = addrOf w := BitVec.and_allOnes
  have hn : countOf w &&& 0xFFFF = countOf w := BitVec.and_allOnes
  rw [eq_comm (b := w)]
  simp only [opcodeRows_fields, List.mem_cons, List.not_mem_nil, or_false] at hr
  obtain rfl | rfl | rfl | rfl | rfl | rfl | rfl | rfl | rfl := hr <;>
    simp_all [word_eq_iff, encode]

/-- Every row fixes the whole of OPC, so a word matches only the row of its opcode (R84). -/
theorem row_opcode {w : Word} {r : Word × Word × Instr} (hr : r ∈ opcodeRows w) (h : w &&& r.1 = r.2.1) :
    r.2.1 = (opcOf w).setWidth 32 := by
  have hw := (row_matches_iff hr).1 h
  simp only [opcodeRows_fields, List.mem_cons, List.not_mem_nil, or_false] at hr
  rw [← hw]
  obtain rfl | rfl | rfl | rfl | rfl | rfl | rfl | rfl | rfl := hr <;> simp [encode]

/-- No word matches two rows (R84): the rows' patterns differ, and each is the word's opcode. -/
theorem matching_row_unique {w : Word} {r q : Word × Word × Instr} (hr : r ∈ opcodeRows w) (hq : q ∈ opcodeRows w)
    (h : w &&& r.1 = r.2.1) (h' : w &&& q.1 = q.2.1) : r = q := by
  have hnd : ((opcodeRows w).map (·.2.1)).Nodup :=
    show ([1, 2, 3, 4, 5, 6, 7, 8, 9] : List Word).Nodup by decide
  exact List.inj_on_of_nodup_map hnd hr hq ((row_opcode hr h).trans (row_opcode hq h').symm)

/-! ### The decoder -/

@[simp] theorem matchesRow_iff {w mask pattern : Word} : matchesRow w mask pattern = true ↔ w &&& mask = pattern :=
  beq_iff_eq

/-- Trying the first row of a list, then the others. -/
theorem find?_cons_elim {α β : Type} (p : α → Bool) (x : α) (xs : List α) (e : β) (f : α → β) :
    ((x :: xs).find? p).elim e f = if p x then f x else (xs.find? p).elim e f := by
  cases h : p x <;> simp [h]

/-- The decoder is the first row that matches (R84). -/
theorem decode_eq_find (w : Word) :
    decode w =
      ((opcodeRows w).find? fun r => matchesRow w r.1 r.2.1).elim (.error (rejectReason w)) fun r => .ok r.2.2 := by
  simp only [decode, opcodeRows_fields, find?_cons_elim, List.find?_nil, Option.elim_none]

/-- A word is a command exactly when it matches a row of that command (R84). -/
theorem decode_eq_ok_iff {w : Word} {i : Instr} :
    decode w = .ok i ↔ ∃ mask pattern, (mask, pattern, i) ∈ opcodeRows w ∧ w &&& mask = pattern := by
  rw [decode_eq_find]
  constructor
  · intro h
    cases hf : (opcodeRows w).find? fun r => matchesRow w r.1 r.2.1 with
    | none => simp [hf] at h
    | some r =>
      obtain ⟨mask, pattern, j⟩ := r
      obtain rfl : j = i := by simpa [hf] using h
      exact ⟨mask, pattern, List.mem_of_find?_eq_some hf, by simpa using List.find?_some hf⟩
  · rintro ⟨mask, pattern, hr, hm⟩
    cases hf : (opcodeRows w).find? fun r => matchesRow w r.1 r.2.1 with
    | none => exact absurd (by simpa using hm) (List.find?_eq_none.1 hf _ hr)
    | some q =>
      have hq : w &&& q.1 = q.2.1 := by simpa using List.find?_some hf
      simp [← matching_row_unique hr (List.mem_of_find?_eq_some hf) hm hq]

/-- Every command's word matches the command's row (R84). -/
theorem rowMatch (i : Instr) : Laws.RowMatch.Statement i :=
  match i with
  | .configure => Laws.RowMatch.configure
  | .init => Laws.RowMatch.init
  | .release => Laws.RowMatch.release
  | .write a n => Laws.RowMatch.write a n
  | .read a n => Laws.RowMatch.read a n
  | .crc8 n => Laws.RowMatch.crc8 n
  | .encode n => Laws.RowMatch.encode n
  | .decode n => Laws.RowMatch.decode n
  | .dcr a n => Laws.RowMatch.dcr a n

/-- The operands read back from a command's word are the command's own (R82, R88). -/
theorem row_mem_encode (i : Instr) : (maskOf i, matchOf i, i) ∈ opcodeRows (encode i) := by
  cases i <;> simp [opcodeRows_fields, maskOf, matchOf, encode]

/-- A word decodes to a command exactly when it is the command's word (R84, R88): a matched row fixes every field of the
word, and the command's word matches the command's row. -/
theorem decode_eq_ok_iff_encode {w : Word} {i : Instr} : decode w = .ok i ↔ encode i = w := by
  rw [decode_eq_ok_iff]
  constructor
  · rintro ⟨mask, pattern, hr, hm⟩
    exact (row_matches_iff hr).1 hm
  · rintro rfl
    exact ⟨maskOf i, matchOf i, row_mem_encode i, (rowMatch i).1⟩

/-- Settles O1, by `decode_eq_ok_iff_encode`: every operand has its field's width by its type. -/
theorem decodeOfEncodeIsTheCommand : Obligations.DecodeOfEncodeIsTheCommand := fun _ _ =>
  decode_eq_ok_iff_encode.2 rfl

/-- Settles O2, by `decode_eq_ok_iff_encode`. -/
theorem encodeOfDecodeIsTheWord : Obligations.EncodeOfDecodeIsTheWord := fun _ _ => decode_eq_ok_iff_encode.1

/-- Settles O3: the decoder takes the first matching row, and no word matches a second one. -/
theorem wordIsACommandExactlyWhenOneRowMatches : Obligations.WordIsACommandExactlyWhenOneRowMatches := fun _ =>
  ⟨fun _ => decode_eq_ok_iff, fun _ hr _ hq h h' => matching_row_unique hr hq h h'⟩

/-- Settles O5: the decoder evaluates each word. -/
theorem workedEncodingsDecode : Obligations.WorkedEncodingsDecode := by
  unfold Obligations.WorkedEncodingsDecode
  decide

/-! ### Reserved encodings -/

/-- The commands' words are those that no line of R85's list names. -/
theorem exists_encode_iff (w : Word) : (∃ i, encode i = w) ↔ ¬ reservedEncoding w := by
  constructor
  · rintro ⟨i, rfl⟩
    cases i <;> simp [reservedEncoding, encode]
  · intro h
    simp only [reservedEncoding, not_or] at h
    obtain ⟨h0, hA, hr, ha, hn⟩ := h
    have ho : opcOf w = 1 ∨ opcOf w = 2 ∨ opcOf w = 3 ∨ opcOf w = 4 ∨ opcOf w = 5 ∨ opcOf w = 6 ∨ opcOf w = 7 ∨
        opcOf w = 8 ∨ opcOf w = 9 := by bv_omega
    obtain ho | ho | ho | ho | ho | ho | ho | ho | ho := ho
    · exact ⟨.configure, word_eq_iff.2 (by simp_all [encode])⟩
    · exact ⟨.init, word_eq_iff.2 (by simp_all [encode])⟩
    · exact ⟨.release, word_eq_iff.2 (by simp_all [encode])⟩
    · exact ⟨.write (addrOf w) (countOf w), word_eq_iff.2 (by simp_all [encode])⟩
    · exact ⟨.read (addrOf w) (countOf w), word_eq_iff.2 (by simp_all [encode])⟩
    · exact ⟨.crc8 (countOf w), word_eq_iff.2 (by simp_all [encode])⟩
    · exact ⟨.encode (countOf w), word_eq_iff.2 (by simp_all [encode])⟩
    · exact ⟨.decode (countOf w), word_eq_iff.2 (by simp_all [encode])⟩
    · exact ⟨.dcr (addrOf w) (countOf w), word_eq_iff.2 (by simp_all [encode])⟩

/-- R85's list names the words that decode to no command. -/
theorem decode_illegal_iff (w : Word) : (∀ i, decode w ≠ .ok i) ↔ reservedEncoding w := by
  rw [← not_iff_not, ← exists_encode_iff]
  simp [decode_eq_ok_iff_encode]

/-- A word that is no command is turned away at once when it is written to CMD while BUSY = 0 (R85, R140). -/
theorem issueWord_illegal {w : Word} {s : State} (hw : ∀ i, decode w ≠ .ok i) (hb : s.st.busy = false) :
    issueWord w s = .next s.turnedAway := by
  have hn : decode? w = none := by
    cases h : decode w with
    | error r => simp [decode?, h, Except.toOption]
    | ok i => exact absurd h (hw i)
  simp [issueWord, hn, issueIllegal, hb]

/-- Settles O4: the listed words are turned away, which changes STATUS and the sequencer position alone. -/
theorem reservedEncodingsCompleteWithCommandError : Obligations.ReservedEncodingsCompleteWithCommandError := fun w =>
  ⟨decode_illegal_iff w, fun hw s hb =>
    ⟨s.turnedAway, issueWord_illegal ((decode_illegal_iff w).2 hw) hb, rfl, rfl, rfl, rfl, rfl, rfl, rfl, rfl, rfl, rfl,
      rfl⟩⟩

/-! ### The assembler -/

/-- A command's statement with its operands in range assembles to the write of the command's word (R88). -/
theorem assemble_command {st : Stmt} {i : Instr} {v : Word} (hl : st.lines = [cmdLine i]) (hw : st.wellFormed = true)
    (hv : encode i = v) : assemble [st] = some [.wr 0 v] := by
  simp [assemble, hl, hw, hv, cmdLine, labelsOf, resolveLines]

/-- A statement with an operand out of range is refused (R88). -/
theorem assemble_refuses {st : Stmt} (hw : st.wellFormed = false) : assemble [st] = none := by
  simp [assemble, hw]

/-- The word of format C is the sum of its fields, each at its place (R81, R88). -/
theorem formatC_ofNat (o : Byte) {a : Nat} (n : Nat) (ha : a ≤ 0x7F) :
    formatC o (BitVec.ofNat 7 a) (BitVec.ofNat 16 n) = BitVec.ofNat 32 (n * 65536 + a * 256 + o.toNat) := by
  have ho := o.isLt
  refine word_eq_iff.2 ⟨BitVec.eq_of_toNat_eq ?_, BitVec.eq_of_toNat_eq ?_, ?_, BitVec.eq_of_toNat_eq ?_⟩ <;>
    simp <;> omega

/-- Settles O7: the checks of R88 decide which of the two the assembler does. -/
theorem assemblerEmitsTheCommandWord : Obligations.AssemblerEmitsTheCommandWord := by
  intro a n
  refine ⟨fun ha hn => ?_, fun hn => ?_, fun h => ?_, fun hn => ?_⟩
  · have hw : (fitsAddr a && fitsCount n) = true := by simp [fitsAddr, fitsCount, ha, hn]
    exact ⟨assemble_command rfl hw (formatC_ofNat 4 n ha), assemble_command rfl hw (formatC_ofNat 5 n ha),
      assemble_command rfl hw (formatC_ofNat 9 n ha)⟩
  · have hw : fitsCount n = true := by simp [fitsCount, hn]
    have hv (o : Byte) : formatC o 0 (BitVec.ofNat 16 n) = BitVec.ofNat 32 (n * 65536 + o.toNat) := by
      simpa using formatC_ofNat o n (Nat.zero_le 0x7F)
    exact ⟨assemble_command rfl hw (hv 6), assemble_command rfl hw (hv 7), assemble_command rfl hw (hv 8)⟩
  · have hw : (fitsAddr a && fitsCount n) = false := by simp [fitsAddr, fitsCount]; omega
    exact ⟨assemble_refuses hw, assemble_refuses hw, assemble_refuses hw⟩
  · have hw : fitsCount n = false := by simp [fitsCount, hn]
    exact ⟨assemble_refuses hw, assemble_refuses hw, assemble_refuses hw⟩

/-! ### The address byte -/

/-- Settles O6: doubling a 7-bit value loses no bit of 8 and leaves bit 0 clear. -/
theorem addressByteIsAddressAndDirection : Obligations.AddressByteIsAddressAndDirection := by
  intro a
  have ha := a.isLt
  have hw : (addrByteWrite a).toNat = 2 * a.toNat := by
    simp [addrByteWrite, Nat.shiftLeft_eq]; omega
  refine ⟨hw, ?_⟩
  calc (addrByteRead a).toNat
    _ = (addrByteWrite a).toNat ||| 1 := BitVec.toNat_or ..
    _ = 2 * a.toNat + 1 := by
      rw [hw]
      exact (Nat.two_pow_add_eq_or_of_lt (i := 1) (by decide) a.toNat).symm

end Sys2Proof.Proofs
end

section
/-! What the sequencer's position says of the two lines: what each line of the pseudocode leads to, what it does to a
line-state variable and to the `on Err` clause, and what each micro-operation adds up to. The invariants of R106, R111,
R121 and R204 are drawn from these. -/

namespace Sys2Proof.Proofs

open Sys2Proof.Machine Sys2Proof.Safety

/-! ### What a line that does not raise leads to -/

/-- The lines that a line puts before those left. -/
inductive Expands : Task → List Task → Prop where
  | moveOn (k : Task) : Expands k []
  | wait : Expands .waitHigh [.poll]
  | retry : Expands .poll [.retry, .poll]
  | write (j n : Nat) (b : Byte) : Expands (.writeData j n) (writeByte b ++ [.writeData (j + 1) n])
  | read (i n : Nat) (ack : Bool) : Expands (.readData i n) (readByte ack ++ [.storeByte i, .readData (i + 1) n])

/-- The line-state variable of l, v before the line (R25). -/
def lineBy (l : Line) (v : LineState) : Task → LineState
  | .pullup l' => if l' = l then .released else v
  | .low l' => if l' = l then .drivenLow else v
  | .reset l' => if l' = l then .neutral else v
  | _ => v

/-- The `on Err` clause in force after the line, h before it. -/
def clauseBy (h : Handler) : Task → Handler
  | .onErr h' => h'
  | _ => h

/-- A line that neither raises nor ends the command, and puts the lines `pre` before those left. -/
structure Continues (k : Task) (pre : List Task) (s t : State) : Prop where
  expands : Expands k pre
  tasks : t.work.tasks = pre ++ s.work.tasks
  handler : t.work.handler = clauseBy s.work.handler k
  line : ∀ l, t.lineOf l = lineBy l (s.lineOf l) k
  initialized : t.st.initialized = s.st.initialized
  pinOk : ∀ l, t.pinOk l = s.pinOk l
  accepted : ∀ l, k = .pullup l → s.pinOk l = true

theorem continues_pullup {s : State} {l : Line} (hp : s.pinOk l = true) :
    Continues (.pullup l) [] s ((s.setLine l .released).act (.pu l)) where
  expands := .moveOn _
  tasks := by simp
  handler := by simp [clauseBy]
  line l' := s.lineOf_setLine l l' _
  initialized := by simp
  pinOk l' := by cases l <;> rfl
  accepted := by rintro _ ⟨⟩; exact hp

theorem continues_low (s : State) (l : Line) : Continues (.low l) [] s ((s.setLine l .drivenLow).act (.lo l)) where
  expands := .moveOn _
  tasks := by simp
  handler := by simp [clauseBy]
  line l' := s.lineOf_setLine l l' _
  initialized := by simp
  pinOk l' := by cases l <;> rfl
  accepted := nofun

theorem continues_reset (s : State) (l : Line) : Continues (.reset l) [] s (s.pinReset l) where
  expands := .moveOn _
  tasks := by simp [State.pinReset]
  handler := by simp [State.pinReset, clauseBy]
  line l' := s.lineOf_setLine l l' _
  initialized := by simp [State.pinReset]
  pinOk l' := by cases l <;> rfl
  accepted := nofun

/-- Both line-state variables, INITIALIZED, the latched configuration and the platform are as before. -/
structure SameBus (s t : State) : Prop where
  scl : t.st.scl = s.st.scl
  sda : t.st.sda = s.st.sda
  initialized : t.st.initialized = s.st.initialized
  cur : t.cur = s.cur
  plat : t.plat = s.plat

theorem SameBus.trans {s t u : State} (h : SameBus s t) (h' : SameBus t u) : SameBus s u :=
  ⟨h'.scl.trans h.scl, h'.sda.trans h.sda, h'.initialized.trans h.initialized, h'.cur.trans h.cur,
    h'.plat.trans h.plat⟩

theorem SameBus.pinOk {s t : State} (h : SameBus s t) (l : Line) : t.pinOk l = s.pinOk l := by
  cases l <;> simp only [State.pinOk, State.pinOf, h.cur, h.plat]

/-- The pin actions that set a line-state variable (R25). -/
def setsLine : Task → Bool
  | .pullup _ => true
  | .low _ => true
  | .reset _ => true
  | _ => false

theorem lineBy_of_not_setsLine {k : Task} (h : setsLine k = false) (l : Line) (v : LineState) : lineBy l v k = v := by
  cases k with
  | pullup l' | low l' | reset l' => cases h
  | _ => rfl

theorem Continues.of_sameBus {k : Task} {pre : List Task} {s t : State} (he : Expands k pre) (hk : setsLine k = false)
    (ht : t.work.tasks = pre ++ s.work.tasks) (hh : t.work.handler = clauseBy s.work.handler k) (hst : SameBus s t) :
    Continues k pre s t where
  expands := he
  tasks := ht
  handler := hh
  line l := by rw [lineBy_of_not_setsLine hk]; exact lineOf_eq hst.scl hst.sda l
  initialized := hst.initialized
  pinOk := hst.pinOk
  accepted := by rintro l rfl; cases hk

/-- A line that does not raise continues the command, unless it ends it. -/
theorem continues_of_runs {k : Task} {s t : State} (hk : endsCommand k = false) (h : runs k s t) :
    ∃ pre, Continues k pre s t := by
  have puts {pre} := Continues.of_sameBus (k := k) (pre := pre) (s := s) (t := t)
  have movesOn := puts (.moveOn k)
  cases k with
  | pullup l => obtain ⟨hp, rfl⟩ := h; exact ⟨_, continues_pullup hp⟩
  | low l => obtain ⟨-, rfl⟩ := h; exact ⟨_, continues_low s l⟩
  | reset l => cases h; exact ⟨_, continues_reset s l⟩
  | waitHigh => cases h; exact ⟨_, puts .wait rfl rfl rfl ⟨rfl, rfl, rfl, rfl, rfl⟩⟩
  | poll =>
    obtain ⟨-, env, fresh, ⟨-, rfl⟩ | ⟨-, -, rfl⟩⟩ := h
    · exact ⟨_, movesOn rfl rfl rfl ⟨rfl, rfl, rfl, rfl, rfl⟩⟩
    · exact ⟨_, puts .retry rfl rfl rfl ⟨rfl, rfl, rfl, rfl, rfl⟩⟩
  | writeData j n =>
    obtain ⟨-, rfl⟩ | ⟨-, b, -, rfl⟩ := h
    · exact ⟨_, movesOn rfl rfl rfl ⟨rfl, rfl, rfl, rfl, rfl⟩⟩
    · exact ⟨_, puts (.write j n b) rfl rfl rfl ⟨rfl, rfl, rfl, rfl, rfl⟩⟩
  | readData i n =>
    obtain ⟨-, rfl⟩ | ⟨-, rfl⟩ := h
    · exact ⟨_, movesOn rfl rfl rfl ⟨rfl, rfl, rfl, rfl, rfl⟩⟩
    · exact ⟨_, puts (.read i n _) rfl rfl rfl ⟨rfl, rfl, rfl, rfl, rfl⟩⟩
  | sampleAck => obtain ⟨-, a, env, fresh, -, rfl⟩ := h; exact ⟨_, movesOn rfl rfl rfl ⟨rfl, rfl, rfl, rfl, rfl⟩⟩
  | sampleBit i => obtain ⟨-, d, env, fresh, -, rfl⟩ := h; exact ⟨_, movesOn rfl rfl rfl ⟨rfl, rfl, rfl, rfl, rfl⟩⟩
  | checkAck => obtain ⟨-, rfl⟩ := h; exact ⟨_, movesOn rfl rfl rfl ⟨rfl, rfl, rfl, rfl, rfl⟩⟩
  | initDone | releaseDone | decodeRaw | finish e ph d => cases hk
  | _ => cases h; exact ⟨_, movesOn rfl rfl rfl ⟨rfl, rfl, rfl, rfl, rfl⟩⟩

/-! ### What the end of a command and its acceptance leave of the bus -/

/-- The command in progress, if any, is over (R21). -/
def Stopped (t : State) : Prop := t.work.tasks = [] ∧ t.work.handler = .none

theorem stopped_finish (s : State) (e : ErrCode) (ph : Phase) (d : Dir) : Stopped (s.finish e ph d) := ⟨rfl, rfl⟩

/-- A line that ends the command leaves none (R158). -/
theorem stopped_of_runs {k : Task} {s t : State} (hk : endsCommand k = true) (h : runs k s t) : Stopped t := by
  obtain ⟨-, u, e, ph, d, rfl⟩ | ⟨hk', -⟩ := movesPosition_of_runs h
  · exact stopped_finish u e ph d
  · simp [hk] at hk'

/-- A command leaves the bus as before at its acceptance, and has ended or stands at its first line; CONFIGURE, which
latches pins, ends there and is refused while INITIALIZED = 1 (R142). -/
theorem exec_sameBus {i : Instr} {s t : State} (h : exec i s = .next t) :
    s.st.busy = false ∧
    (SameBus s t ∧ (Stopped t ∨ IsCommandLines t.work.tasks ∧ t.work.handler = .none) ∨
     s.st.initialized = false ∧ t.st.initialized = false ∧ Stopped t) := by
  obtain ⟨hb, rfl | h'⟩ := exec_cases h
  · exact ⟨hb, .inl ⟨⟨rfl, rfl, rfl, rfl, rfl⟩, .inl (stopped_finish ..)⟩⟩
  refine ⟨hb, ?_⟩
  cases i with
  | configure =>
    obtain ⟨-, ⟨-, rfl⟩ | ⟨hr, h⟩⟩ := issue_cases h
    · exact .inl ⟨⟨rfl, rfl, rfl, rfl, rfl⟩, .inl (stopped_finish ..)⟩
    · have hi : s.st.initialized = false := by simp_all [State.refusesConfigure]
      simp only [runConfigure] at h
      split_ifs at h <;> cases h <;> exact .inr ⟨hi, hi, stopped_finish ..⟩
  | crc8 n =>
    simp only [runCrc8] at h'
    split at h' <;> cases h'
    exact .inl ⟨⟨rfl, rfl, rfl, rfl, rfl⟩, .inl (stopped_finish ..)⟩
  | encode n =>
    simp only [runEncode] at h'
    split at h' <;> cases h'
    exact .inl ⟨⟨rfl, rfl, rfl, rfl, rfl⟩, .inl (stopped_finish ..)⟩
  | decode n =>
    obtain ⟨raw, -, ⟨-, rfl⟩ | ⟨ws, -, -, rfl⟩⟩ := State.decodeAndFinish_cases h' <;>
      exact .inl ⟨⟨rfl, rfl, rfl, rfl, rfl⟩, .inl (stopped_finish ..)⟩
  | init => cases h'; exact .inl ⟨⟨rfl, rfl, rfl, rfl, rfl⟩, .inr ⟨.inl rfl, rfl⟩⟩
  | release => cases h'; exact .inl ⟨⟨rfl, rfl, rfl, rfl, rfl⟩, .inr ⟨.inr (.inl ⟨_, rfl⟩), rfl⟩⟩
  | write a n => cases h'; exact .inl ⟨⟨rfl, rfl, rfl, rfl, rfl⟩, .inr ⟨.inr (.inr (.inl ⟨_, rfl⟩)), rfl⟩⟩
  | read a n => cases h'; exact .inl ⟨⟨rfl, rfl, rfl, rfl, rfl⟩, .inr ⟨.inr (.inr (.inr (.inl ⟨_, rfl⟩))), rfl⟩⟩
  | dcr a n => cases h'; exact .inl ⟨⟨rfl, rfl, rfl, rfl, rfl⟩, .inr ⟨.inr (.inr (.inr (.inr ⟨_, rfl⟩))), rfl⟩⟩

/-- A host statement leaves the bus and the position as before, is a command's acceptance, or leaves the block with no
command and either the bus as before or INITIALIZED = 0. -/
theorem runHostOp_sameBus {o : HostOp} {s t : State} (h : runHostOp o s = .next t) :
    (SameBus s t ∧ t.work.tasks = s.work.tasks ∧ t.work.handler = s.work.handler) ∨
    (s.st.busy = false ∧ SameBus s t ∧ (Stopped t ∨ IsCommandLines t.work.tasks ∧ t.work.handler = .none)) ∨
    (t.st.initialized = false ∧ Stopped t) := by
  obtain ⟨w, -, hw⟩ | ⟨-, rfl⟩ | ⟨reg, tx, rx, wb, host, peers, fresh, rfl⟩ := runHostOp_cases h
  · obtain ⟨hb, rfl⟩ | ⟨i, hi⟩ := issueWord_cases hw
    · exact .inr (.inl ⟨hb, ⟨rfl, rfl, rfl, rfl, rfl⟩, .inl (stopped_finish ..)⟩)
    · obtain ⟨hb, ⟨⟨hc, hd, hi, hu, hp⟩, ht⟩ | ⟨-, hi, ht⟩⟩ := exec_sameBus hi
      · exact .inr (.inl ⟨hb, ⟨hc, hd, hi, hu, hp⟩, ht⟩)
      · exact .inr (.inr ⟨hi, ht⟩)
  · exact .inr (.inr ⟨rfl, rfl, rfl⟩)
  · exact .inl ⟨⟨rfl, rfl, rfl, rfl, rfl⟩, rfl, rfl⟩

/-! ### What the lines of a micro-operation add up to -/

/-- The lines of a micro-operation: none ends the command, is a byte loop or sets an `on Err` clause. -/
def microLine : Task → Bool
  | .onErr _ => false
  | k => !endsCommand k && !byteLoop k

def MicroLines (ts : List Task) : Prop := ts.all microLine = true

@[simp] theorem microLines_cons {k : Task} {ts : List Task} :
    MicroLines (k :: ts) ↔ microLine k = true ∧ MicroLines ts := by
  simp [MicroLines]

@[simp] theorem microLines_append {ts us : List Task} : MicroLines (ts ++ us) ↔ MicroLines ts ∧ MicroLines us := by
  simp only [MicroLines, List.all_append, Bool.and_eq_true]

/-- The line-state variable of l after the lines ts, v before them. -/
def linesBy (l : Line) (v : LineState) (ts : List Task) : LineState := ts.foldl (lineBy l) v

@[simp] theorem linesBy_cons (l : Line) (v : LineState) (k : Task) (ts : List Task) :
    linesBy l v (k :: ts) = linesBy l (lineBy l v k) ts := rfl

@[simp] theorem linesBy_append (l : Line) (v : LineState) (ts us : List Task) :
    linesBy l v (ts ++ us) = linesBy l (linesBy l v ts) us :=
  List.foldl_append

/-- The line-state variables after a byte is written or read (R117, R120). -/
def lineAfterByte : Line → LineState
  | .scl => .drivenLow
  | .sda => .released

section
variable (l : Line) (v : LineState)

@[simp] theorem microLines_start : MicroLines start := rfl

@[simp] theorem microLines_stop : MicroLines stop := rfl

@[simp] theorem microLines_writeBit (b : Byte) (i : BitVec 3) : MicroLines (writeBit b i) := by
  unfold writeBit sdaTo
  cases b.getLsbD i.toNat <;> rfl

@[simp] theorem microLines_writeByte (b : Byte) : MicroLines (writeByte b) := by
  have hack : MicroLines ackPhase := rfl
  simp [writeByte, bitsDown, hack]

@[simp] theorem microLines_readByte (ack : Bool) : MicroLines (readByte ack) := by
  cases ack <;> rfl

@[simp] theorem linesBy_start : linesBy l v start = .drivenLow := by
  cases l <;> rfl

@[simp] theorem linesBy_stop : linesBy l v stop = .released := by
  cases l <;> rfl

@[simp] theorem linesBy_writeByte (b : Byte) : linesBy l v (writeByte b) = lineAfterByte l := by
  have hack (v) : linesBy l v ackPhase = lineAfterByte l := by cases l <;> rfl
  rw [writeByte, linesBy_append, hack]

@[simp] theorem linesBy_readByte (ack : Bool) : linesBy l v (readByte ack) = lineAfterByte l := by
  cases l <;> cases ack <;> rfl

end

/-! ### The line that ends the command -/

theorem ending_cons (k : Task) (ts : List Task) : ending (k :: ts) = if endsCommand k then some k else ending ts := by
  cases h : endsCommand k <;> simp [ending, h]

theorem not_ends_of_microLine {k : Task} (h : microLine k = true) :
    endsCommand k = false ∧ byteLoop k = false ∧ ∀ c, clauseBy c k = c := by
  cases k with
  | onErr h' | initDone | releaseDone | decodeRaw | finish e ph d | writeData j n | readData i n => cases h
  | _ => exact ⟨rfl, rfl, fun _ => rfl⟩

@[simp] theorem ending_append {ts : List Task} (h : MicroLines ts) (us : List Task) :
    ending (ts ++ us) = ending us := by
  induction ts with
  | nil => rfl
  | cons k ts ih =>
    obtain ⟨hk, hts⟩ := microLines_cons.1 h
    obtain ⟨he, -, -⟩ := not_ends_of_microLine hk
    simpa [ending_cons, he] using ih hts

@[simp] theorem ending_txWrite (a : Addr) (n : Nat) (ts : List Task) : ending (txWrite a n ++ ts) = ending ts := by
  simp [txWrite, ending_cons, endsCommand]

@[simp] theorem ending_txRead (a : Addr) (n : Nat) (ts : List Task) : ending (txRead a n ++ ts) = ending ts := by
  simp [txRead, ending_cons, endsCommand]

/-- Only INIT ends with INIT's last line (R145). -/
theorem IsCommandLines.eq_initTasks {ts : List Task} (h : IsCommandLines ts) (he : ending ts = some .initDone) :
    ts = initTasks := by
  obtain rfl | ⟨c, rfl⟩ | ⟨o, rfl⟩ | ⟨o, rfl⟩ | ⟨o, rfl⟩ := h
  · rfl
  · cases c <;> cases he
  · simp [writeTasks, ending_cons, endsCommand] at he
  · simp [readTasks, ending_cons, endsCommand] at he
  · simp [dcrTasks, ending_cons, endsCommand] at he

/-- What a line puts before those left does not end the command. -/
theorem Expands.ending {k : Task} {pre : List Task} (h : Expands k pre) (ts : List Task) :
    Safety.ending (pre ++ ts) = Safety.ending ts := by
  cases h with
  | moveOn | wait | retry => rfl
  | write j n b => simp [ending_cons, endsCommand]
  | read i n ack => simp [ending_cons, endsCommand]

/-! ### The line-state variables when the command ends (R111) -/

section
variable {l : Line} {v : LineState}

theorem finalLine_cons_of_ends {k : Task} (h : endsCommand k = true) (ts : List Task) :
    finalLine l v (k :: ts) = v := by
  simp [finalLine, h]

theorem finalLine_cons {k : Task} (h : endsCommand k = false) (hb : byteLoop k = false) (ts : List Task) :
    finalLine l v (k :: ts) = finalLine l (lineBy l v k) ts := by
  cases k with
  | pullup l' | low l' | reset l' => cases l <;> cases l' <;> rfl
  | initDone | releaseDone | decodeRaw | finish e ph d => cases h
  | writeData j n | readData i n => cases hb
  | _ => rfl

theorem finalLine_byteLoop {k : Task} (hb : byteLoop k = true) (ts : List Task) :
    finalLine l v (k :: ts) = finalLine l .neutral ts := by
  cases k with
  | writeData j n | readData i n => rfl
  | _ => cases hb

/-- A line of the pseudocode leaves a line-state variable, or sets it whatever it was. -/
theorem lineBy_cases (k : Task) : (∀ v, lineBy l v k = v) ∨ ∀ v w, lineBy l v k = lineBy l w k := by
  cases k with
  | pullup l' | low l' | reset l' => cases l <;> cases l' <;> simp [lineBy]
  | _ => exact .inl fun _ => rfl

/-- A line that ends RELEASED though it may be NEUTRAL now, as after a byte loop, does so from every state. -/
theorem finalLine_of_neutral {ts : List Task} (h : finalLine l .neutral ts = .released) (v : LineState) :
    finalLine l v ts = .released := by
  induction ts with
  | nil => cases h
  | cons k ts ih =>
    cases he : endsCommand k with
    | true => rw [finalLine_cons_of_ends he] at h; cases h
    | false =>
      cases hb : byteLoop k with
      | true => rwa [finalLine_byteLoop hb] at h ⊢
      | false =>
        rw [finalLine_cons he hb] at h ⊢
        obtain hk | hk := lineBy_cases (l := l) k
        · rw [hk] at h ⊢; exact ih h
        · rwa [hk v .neutral]

@[simp] theorem finalLine_append {ts : List Task} (h : MicroLines ts) (us : List Task) :
    finalLine l v (ts ++ us) = finalLine l (linesBy l v ts) us := by
  induction ts generalizing v with
  | nil => rfl
  | cons k ts ih =>
    obtain ⟨hk, hts⟩ := microLines_cons.1 h
    obtain ⟨he, hb, -⟩ := not_ends_of_microLine hk
    rw [List.cons_append, finalLine_cons he hb, ih hts, linesBy_cons]

theorem finalLine_txWrite (a : Addr) (n : Nat) (ts : List Task) :
    finalLine l v (txWrite a n ++ ts) = finalLine l .released ts := by
  simp [txWrite, finalLine, endsCommand, byteLoop]

theorem finalLine_txRead (a : Addr) (n : Nat) (ts : List Task) :
    finalLine l v (txRead a n ++ ts) = finalLine l .released ts := by
  simp [txRead, finalLine, endsCommand, byteLoop]

/-- Every command but RELEASE leaves both lines RELEASED (R111, R145). -/
theorem IsCommandLines.finalLine {ts : List Task} (h : IsCommandLines ts) (he : ending ts ≠ some .releaseDone)
    (l : Line) (v : LineState) : Safety.finalLine l v ts = .released := by
  obtain rfl | ⟨c, rfl⟩ | ⟨o, rfl⟩ | ⟨o, rfl⟩ | ⟨o, rfl⟩ := h
  · cases l <;> rfl
  · cases c <;> exact absurd rfl he
  · rw [writeTasks, finalLine_txWrite]; rfl
  · rw [readTasks, finalLine_txRead]; rfl
  · simp [dcrTasks, finalLine_txWrite, finalLine_txRead, Safety.finalLine, endsCommand, byteLoop]

/-- A line whose expansion is run leads to the same line-state variables at the command's end. -/
theorem Expands.finalLine {k : Task} {pre : List Task} (h : Expands k pre) (hk : endsCommand k = false) {ts : List Task}
    (hf : Safety.finalLine l v (k :: ts) = .released) : Safety.finalLine l (lineBy l v k) (pre ++ ts) = .released := by
  cases h with
  | moveOn =>
    cases hb : byteLoop k with
    | true =>
      rw [finalLine_byteLoop hb] at hf
      exact finalLine_of_neutral hf _
    | false => rwa [finalLine_cons hk hb] at hf
  | wait | retry => exact hf
  | write j n b => simpa [Safety.finalLine, endsCommand, byteLoop] using hf
  | read i n ack => simpa [Safety.finalLine, endsCommand, byteLoop] using hf

end

/-! ### Reads of RELEASED lines (R106, R121) -/

/-- The line reads no line-state variable but RELEASED ones, c and d being those of SCL and SDA. -/
def readsOnlyReleased (c d : LineState) : Task → Bool
  | .waitHigh => decide (c = .released)
  | .poll => decide (c = .released)
  | .sampleAck => decide (d = .released)
  | .sampleBit _ => decide (d = .released)
  | _ => true

section
variable {c d : LineState}

theorem readsReleased_cons {k : Task} (hb : byteLoop k = false) (ts : List Task) :
    readsReleased c d (k :: ts) =
      (readsOnlyReleased c d k && readsReleased (lineBy .scl c k) (lineBy .sda d k) ts) := by
  cases k with
  | pullup l | low l | reset l => cases l <;> rfl
  | writeData j n | readData i n => cases hb
  | _ => rfl

theorem readsReleased_byteLoop {k : Task} (hb : byteLoop k = true) (ts : List Task) :
    readsReleased c d (k :: ts) = readsReleased .neutral .neutral ts := by
  cases k with
  | writeData j n | readData i n => rfl
  | _ => cases hb

theorem readsOnlyReleased_of_imp {k : Task} {c' d' : LineState} (hc : c = .released → c' = .released)
    (hd : d = .released → d' = .released) (h : readsOnlyReleased c d k = true) : readsOnlyReleased c' d' k = true := by
  cases k with
  | waitHigh | poll => simpa [readsOnlyReleased] using hc (by simpa [readsOnlyReleased] using h)
  | sampleAck | sampleBit i => simpa [readsOnlyReleased] using hd (by simpa [readsOnlyReleased] using h)
  | _ => rfl

theorem lineBy_released_of_imp {l : Line} {v w : LineState} (h : v = .released → w = .released) (k : Task)
    (hv : lineBy l v k = .released) : lineBy l w k = .released := by
  obtain hk | hk := lineBy_cases (l := l) k
  · rw [hk] at hv ⊢; exact h hv
  · rwa [hk w v]

/-- More RELEASED lines admit no fewer reads. -/
theorem readsReleased_of_imp {ts : List Task} {c' d' : LineState} (hc : c = .released → c' = .released)
    (hd : d = .released → d' = .released) (h : readsReleased c d ts = true) : readsReleased c' d' ts = true := by
  induction ts generalizing c d c' d' with
  | nil => rfl
  | cons k ts ih =>
    cases hb : byteLoop k with
    | true => rwa [readsReleased_byteLoop hb] at h ⊢
    | false =>
      rw [readsReleased_cons hb, Bool.and_eq_true] at h ⊢
      obtain ⟨hk, hts⟩ := h
      exact ⟨readsOnlyReleased_of_imp hc hd hk,
        ih (lineBy_released_of_imp hc k) (lineBy_released_of_imp hd k) hts⟩

theorem readsReleased_append {ts : List Task} (h : MicroLines ts) (us : List Task) :
    readsReleased c d (ts ++ us) =
      (readsReleased c d ts && readsReleased (linesBy .scl c ts) (linesBy .sda d ts) us) := by
  induction ts generalizing c d with
  | nil => rfl
  | cons k ts ih =>
    obtain ⟨hk, hts⟩ := microLines_cons.1 h
    obtain ⟨-, hb, -⟩ := not_ends_of_microLine hk
    rw [List.cons_append, readsReleased_cons hb, readsReleased_cons hb, ih hts, linesBy_cons, linesBy_cons,
      Bool.and_assoc]

theorem readsReleased_writeBit (b : Byte) (i : BitVec 3) : readsReleased c d (writeBit b i) = true := by
  unfold writeBit sdaTo
  cases b.getLsbD i.toNat <;> rfl

theorem readsReleased_start (ts : List Task) :
    readsReleased c d (start ++ ts) = readsReleased .drivenLow .drivenLow ts := rfl

theorem readsReleased_stop (ts : List Task) :
    readsReleased c d (stop ++ ts) = readsReleased .released .released ts := rfl

theorem readsReleased_writeByte (b : Byte) (ts : List Task) :
    readsReleased c d (writeByte b ++ ts) = readsReleased .drivenLow .released ts := by
  have hack (c d) : readsReleased c d (ackPhase ++ ts) = readsReleased .drivenLow .released ts := rfl
  simp [writeByte, bitsDown, readsReleased_append, readsReleased_writeBit, hack]

theorem readsReleased_readByte (ack : Bool) (ts : List Task) :
    readsReleased c d (readByte ack ++ ts) = readsReleased .drivenLow .released ts := by
  cases ack <;> rfl

theorem readsReleased_txWrite (a : Addr) (n : Nat) (ts : List Task) :
    readsReleased c d (txWrite a n ++ ts) = readsReleased .released .released ts := by
  simp [txWrite, readsReleased, readsReleased_start, readsReleased_writeByte, readsReleased_stop]

theorem readsReleased_txRead (a : Addr) (n : Nat) (ts : List Task) :
    readsReleased c d (txRead a n ++ ts) = readsReleased .released .released ts := by
  simp [txRead, readsReleased, readsReleased_start, readsReleased_writeByte, readsReleased_stop]

theorem IsCommandLines.readsReleased {ts : List Task} (h : IsCommandLines ts) (c d : LineState) :
    Safety.readsReleased c d ts = true := by
  obtain rfl | ⟨r, rfl⟩ | ⟨o, rfl⟩ | ⟨o, rfl⟩ | ⟨o, rfl⟩ := h
  · rfl
  · cases r <;> rfl
  · rw [writeTasks, readsReleased_txWrite]; rfl
  · rw [readTasks, readsReleased_txRead]; rfl
  · simp [dcrTasks, readsReleased_txWrite, readsReleased_txRead, Safety.readsReleased]

/-- A line whose expansion is run reads RELEASED lines only, if the position at the line does. -/
theorem Expands.readsReleased {k : Task} {pre : List Task} (h : Expands k pre) {ts : List Task}
    (hr : Safety.readsReleased c d (k :: ts) = true) :
    Safety.readsReleased (lineBy .scl c k) (lineBy .sda d k) (pre ++ ts) = true := by
  cases h with
  | moveOn =>
    cases hb : byteLoop k with
    | true =>
      rw [readsReleased_byteLoop hb] at hr
      exact readsReleased_of_imp (c := .neutral) (d := .neutral) nofun nofun hr
    | false =>
      rw [readsReleased_cons hb, Bool.and_eq_true] at hr
      exact hr.2
  | wait => exact hr
  | retry => exact hr
  | write j n b => simpa [readsReleased_writeByte, Safety.readsReleased] using hr
  | read i n ack => simpa [readsReleased_readByte, Safety.readsReleased] using hr

end

/-! ### Lines that can raise ClockTimeout or Nack (R112) -/

theorem guarded_cons (h : Handler) (k : Task) (ts : List Task) :
    guarded h (k :: ts) = ((!mayRaise k || isCleanup h) && guarded (clauseBy h k) ts) := by
  cases k <;> rfl

theorem exists_of_isCleanup {h : Handler} (hc : isCleanup h = true) : ∃ ph dir, h = .cleanup ph dir := by
  cases h with
  | cleanup ph dir => exact ⟨ph, dir, rfl⟩
  | none | report | stopping | cleaning => cases hc

/-- Under CLEANUP's clause a micro-operation may raise (R205). -/
theorem guarded_append {ph : Phase} {dir : Dir} {ts : List Task} (hm : MicroLines ts) (us : List Task) :
    guarded (.cleanup ph dir) (ts ++ us) = guarded (.cleanup ph dir) us := by
  induction ts with
  | nil => rfl
  | cons k ts ih =>
    obtain ⟨hk, hts⟩ := microLines_cons.1 hm
    obtain ⟨-, -, hh⟩ := not_ends_of_microLine hk
    simp [guarded_cons, isCleanup, hh, ih hts]

/-- STOP cannot raise ClockTimeout or Nack (R112). -/
theorem guarded_stop (h : Handler) (ts : List Task) : guarded h (stop ++ ts) = guarded h ts := rfl

theorem guarded_txWrite (h : Handler) (a : Addr) (n : Nat) (ts : List Task) :
    guarded h (txWrite a n ++ ts) = guarded (.stopping .write) ts := by
  simp [txWrite, guarded, guarded_append, guarded_stop, isCleanup]

theorem guarded_txRead (h : Handler) (a : Addr) (n : Nat) (ts : List Task) :
    guarded h (txRead a n ++ ts) = guarded (.stopping .read) ts := by
  simp [txRead, guarded, guarded_append, guarded_stop, isCleanup]

theorem IsCommandLines.guarded {ts : List Task} (h : IsCommandLines ts) : Safety.guarded .none ts = true := by
  obtain rfl | ⟨r, rfl⟩ | ⟨o, rfl⟩ | ⟨o, rfl⟩ | ⟨o, rfl⟩ := h
  · rfl
  · cases r <;> rfl
  · rw [writeTasks, guarded_txWrite]; rfl
  · rw [readTasks, guarded_txRead]; rfl
  · simp [dcrTasks, guarded_txWrite, guarded_txRead, Safety.guarded, mayRaise]

theorem Expands.guarded {k : Task} {pre : List Task} (h : Expands k pre) {c : Handler} {ts : List Task}
    (hg : Safety.guarded c (k :: ts) = true) : Safety.guarded (clauseBy c k) (pre ++ ts) = true := by
  cases h with
  | moveOn => rw [guarded_cons, Bool.and_eq_true] at hg; exact hg.2
  | wait => exact hg
  | retry => exact hg
  | write j n b =>
    obtain ⟨ph, dir, rfl⟩ := exists_of_isCleanup (h := c) (by simp_all [guarded_cons, mayRaise])
    simpa [guarded_append, clauseBy, guarded_cons, isCleanup] using hg
  | read i n ack =>
    obtain ⟨ph, dir, rfl⟩ := exists_of_isCleanup (h := c) (by simp_all [guarded_cons, mayRaise])
    simpa [guarded_append, clauseBy, guarded_cons, isCleanup, mayRaise] using hg

/-! ### INIT's two pull-ups (R145) -/

theorem willPull_append {l : Line} {ts us : List Task} (hm : MicroLines ts) (h : willPull l us = true) :
    willPull l (ts ++ us) = true := by
  induction ts with
  | nil => exact h
  | cons k ts ih =>
    obtain ⟨hk, hts⟩ := microLines_cons.1 hm
    obtain ⟨he, -, -⟩ := not_ends_of_microLine hk
    simp [willPull, he, ih hts]

/-- Past another line the pull-up is still to come. -/
theorem Expands.willPull {k : Task} {pre : List Task} (h : Expands k pre) {l : Line} {ts : List Task}
    (hk : k ≠ .pullup l) (hw : Safety.willPull l (k :: ts) = true) : Safety.willPull l (pre ++ ts) = true := by
  have hts : Safety.willPull l ts = true := by
    cases he : endsCommand k <;> simp_all [Safety.willPull]
  cases h with
  | moveOn => exact hts
  | wait => exact hts
  | retry => exact hts
  | write j n b => simp [willPull_append, Safety.willPull, endsCommand, hts]
  | read i n ack => simp [willPull_append, Safety.willPull, endsCommand, hts]

end Sys2Proof.Proofs
end

section
/-! The invariants of the bus: reads of RELEASED lines only (R106, R121), and the idle bus between commands (R111,
R204). -/

namespace Sys2Proof.Proofs

open Sys2Proof.Machine Sys2Proof.Safety

/-! ### Reads of RELEASED lines -/

theorem readsInv_of_stopped {t : State} (h : Stopped t) : ReadsInv t := by
  rw [ReadsInv, h.1]
  rfl

/-- CLEANUP's STOP reads no line (R112, R205). -/
theorem raise_readsInv (s : State) (e : ErrCode) : ReadsInv (s.raise e) := by
  obtain ⟨-, h⟩ | ⟨ph, dir, -, h⟩ | ⟨dir, -, h⟩ | ⟨e0, ph, dir, -, h⟩ := s.raise_cases e <;> rw [h] <;> rfl

theorem runTask_readsInv {k : Task} {ts : List Task} {s t : State} (hts : s.work.tasks = k :: ts)
    (h : runTask k (s.setTasks ts) = .next t) (hs : ReadsInv s) : ReadsInv t := by
  obtain ⟨e, b, env, fresh, as, rfl, -⟩ | hr := runTask_cases h
  · exact raise_readsInv _ e
  cases hk : endsCommand k with
  | true => exact readsInv_of_stopped (stopped_of_runs hk hr)
  | false =>
    obtain ⟨pre, hc⟩ := continues_of_runs hk hr
    rw [ReadsInv, hts] at hs
    have hline : readsReleased (t.lineOf .scl) (t.lineOf .sda) t.work.tasks = true := by
      rw [hc.line, hc.line, hc.tasks]
      exact hc.expands.readsReleased hs
    exact hline

theorem runHostOp_readsInv {o : HostOp} {s t : State} (h : runHostOp o s = .next t) (hs : ReadsInv s) : ReadsInv t := by
  obtain ⟨hb, hts, -⟩ | ⟨-, -, hst | ⟨hl, -⟩⟩ | ⟨-, hst⟩ := runHostOp_sameBus h
  · rw [ReadsInv, hb.scl, hb.sda, hts]
    exact hs
  · exact readsInv_of_stopped hst
  · exact hl.readsReleased _ _
  · exact readsInv_of_stopped hst

/-- Settles O54: WAIT_CLOCK_HIGH and the samples follow the pull-up of the line they read, in every micro-operation. -/
theorem stepKeepsReadsOnReleasedLines : Obligations.StepKeepsReadsOnReleasedLines := fun _ _ hs h =>
  step_keeps (fun _ _ _ => id) (fun _ _ _ _ _ hts => runTask_readsInv hts) (fun _ _ _ => runHostOp_readsInv) h hs

/-! ### The pins of an INITIALIZED block (R204) -/

theorem SameBus.pinsValid {s t : State} (h : SameBus s t) (hp : PinsValid s) : PinsValid t :=
  ⟨(h.pinOk .scl).trans hp.1, (h.pinOk .sda).trans hp.2⟩

theorem pinsInv_of_sameBus {s t : State} (hb : SameBus s t) (he : ending t.work.tasks ≠ some .initDone)
    (hs : PinsInv s) : PinsInv t :=
  ⟨fun hi => hb.pinsValid (hs.1 (hb.initialized ▸ hi)), fun h => absurd h he⟩

/-- INIT will try both pins (R145). -/
theorem pinsInv_of_initTasks {s t : State} (hb : SameBus s t) (ht : t.work.tasks = initTasks) (hs : PinsInv s) :
    PinsInv t := by
  refine ⟨fun hi => hb.pinsValid (hs.1 (hb.initialized ▸ hi)), fun _ => ?_⟩
  rw [ht]
  exact ⟨.inr rfl, .inr rfl⟩

/-- A line that does not end the command leaves the line that will. -/
theorem Continues.ending_eq {k : Task} {pre ts : List Task} {s t : State} (hk : endsCommand k = false)
    (hts : s.work.tasks = k :: ts) (hc : Continues k pre (s.setTasks ts) t) :
    ending t.work.tasks = ending s.work.tasks := by
  rw [hts, ending_cons, hk, hc.tasks, hc.expands.ending]
  rfl

theorem Continues.pinsInv {k : Task} {pre ts : List Task} {s t : State} (hk : endsCommand k = false)
    (hts : s.work.tasks = k :: ts) (hc : Continues k pre (s.setTasks ts) t) (hs : PinsInv s) : PinsInv t := by
  have hok (l) : t.pinOk l = s.pinOk l := hc.pinOk l
  have htries (l) (h : s.pinOk l = true ∨ willPull l s.work.tasks = true) :
      t.pinOk l = true ∨ willPull l t.work.tasks = true := by
    rw [hok]
    by_cases hl : k = .pullup l
    · exact .inl (hc.accepted l hl)
    · rw [hts] at h
      rw [hc.tasks]
      exact h.imp_right (hc.expands.willPull hl)
  refine ⟨fun hi => ?_, fun he => ?_⟩
  · obtain ⟨hcl, hda⟩ := hs.1 (hc.initialized ▸ hi)
    exact ⟨(hok .scl).trans hcl, (hok .sda).trans hda⟩
  · obtain ⟨hcl, hda⟩ := hs.2 ((hc.ending_eq hk hts).symm.trans he)
    exact ⟨htries .scl hcl, htries .sda hda⟩

/-! ### The idle bus between commands (R111) -/

/-- The command in progress, if any, is to leave both lines RELEASED. -/
def MustRelease (s : State) : Prop :=
  ending s.work.tasks = some .initDone ∨ (s.st.initialized = true ∧ ending s.work.tasks ≠ some .releaseDone)

theorem busInv_iff {s : State} : BusInv s ↔
    PinsInv s ∧ guarded s.work.handler s.work.tasks = true ∧
      (MustRelease s → ∀ l, finalLine l (s.lineOf l) s.work.tasks = .released) :=
  and_congr_right fun _ => and_congr_right fun _ => imp_congr_right fun _ =>
    ⟨fun ⟨hc, hd⟩ l => by cases l <;> assumption, fun h => ⟨h .scl, h .sda⟩⟩

theorem busInv_of_uninitialized {t : State} (hi : t.st.initialized = false) (ht : Stopped t) : BusInv t := by
  obtain ⟨hts, -⟩ := ht
  refine busInv_iff.2 ⟨⟨fun h => by simp [hi] at h, fun h => by simp [hts, ending] at h⟩, by rw [hts]; rfl, fun h => ?_⟩
  simp [MustRelease, hi, hts, ending] at h

theorem busInv_of_same {s t : State} (hb : SameBus s t) (hts : t.work.tasks = s.work.tasks)
    (hh : t.work.handler = s.work.handler) (hs : BusInv s) : BusInv t := by
  simpa only [BusInv, PinsInv, PinsValid, hb.pinOk, hb.scl, hb.sda, hb.initialized, hts, hh] using hs

/-- A command that has ended leaves the bus idle, if it leaves it as a block with RELEASED lines had it. -/
theorem busInv_of_stopped {s t : State} (hb : SameBus s t) (ht : Stopped t) (hs : PinsInv s)
    (hl : s.st.initialized = true → ∀ l, s.lineOf l = .released) : BusInv t := by
  obtain ⟨hts, -⟩ := ht
  refine busInv_iff.2 ⟨pinsInv_of_sameBus hb (by simp [hts, ending]) hs, by rw [hts]; rfl, fun h l => ?_⟩
  rw [hts]
  obtain h | ⟨hi, -⟩ := h
  · simp [hts, ending] at h
  · exact (lineOf_eq hb.scl hb.sda l).trans (hl (hb.initialized ▸ hi) l)

/-- A command that begins is to leave the bus idle, unless it is a RELEASE. -/
theorem busInv_of_begins {s t : State} (hb : SameBus s t) (hl : IsCommandLines t.work.tasks)
    (hh : t.work.handler = .none) (hs : PinsInv s) : BusInv t := by
  refine busInv_iff.2 ⟨?_, by rw [hh]; exact hl.guarded, fun h l => hl.finalLine ?_ l _⟩
  · by_cases he : ending t.work.tasks = some .initDone
    · exact pinsInv_of_initTasks hb (hl.eq_initTasks he) hs
    · exact pinsInv_of_sameBus hb he hs
  · obtain h | ⟨-, h⟩ := h
    · simp [h]
    · exact h

/-- An idle INITIALIZED block has both lines RELEASED (R111). -/
theorem released_of_idle {s : State} (hp : PositionInv s) (hs : BusInv s) (hb : s.st.busy = false)
    (hi : s.st.initialized = true) (l : Line) : s.lineOf l = .released := by
  obtain ⟨hts, -⟩ := hp.2 hb
  obtain ⟨-, -, hl⟩ := busInv_iff.1 hs
  simpa [hts, finalLine] using hl (.inr ⟨hi, by simp [hts, ending]⟩) l

theorem runHostOp_busInv {o : HostOp} {s t : State} (h : runHostOp o s = .next t) (hp : PositionInv s)
    (hs : BusInv s) : BusInv t := by
  obtain ⟨hb, hts, hh⟩ | ⟨hidle, hb, hst | ⟨hl, hh⟩⟩ | ⟨hi, hst⟩ := runHostOp_sameBus h
  · exact busInv_of_same hb hts hh hs
  · exact busInv_of_stopped hb hst hs.1 (released_of_idle hp hs hidle)
  · exact busInv_of_begins hb hl hh hs.1
  · exact busInv_of_uninitialized hi hst

theorem Continues.busInv {k : Task} {pre ts : List Task} {s t : State} (hk : endsCommand k = false)
    (hts : s.work.tasks = k :: ts) (hc : Continues k pre (s.setTasks ts) t) (hs : BusInv s) : BusInv t := by
  obtain ⟨hpins, hg, hl⟩ := busInv_iff.1 hs
  rw [hts] at hg hl
  have he : ending t.work.tasks = ending s.work.tasks := hc.ending_eq hk hts
  refine busInv_iff.2 ⟨hc.pinsInv hk hts hpins, ?_, fun h l => ?_⟩
  · rw [hc.handler, hc.tasks]
    exact hc.expands.guarded hg
  · rw [hc.line, hc.tasks]
    refine hc.expands.finalLine hk (hl ?_ l)
    rwa [MustRelease, he, hc.initialized] at h

theorem sameBus_raise (s : State) (e : ErrCode) : SameBus s (s.raise e) := by
  obtain ⟨b, ts, h, hr⟩ := s.raise_frame e
  rw [hr]
  exact ⟨rfl, rfl, rfl, rfl, rfl⟩

theorem guarded_raise (s : State) (e : ErrCode) : guarded (s.raise e).work.handler (s.raise e).work.tasks = true := by
  obtain ⟨-, h⟩ | ⟨ph, dir, -, h⟩ | ⟨dir, -, h⟩ | ⟨e0, ph, dir, -, h⟩ := s.raise_cases e <;> rw [h] <;> rfl

theorem ending_raise (s : State) (e : ErrCode) :
    ∃ e' ph dir, ending (s.raise e).work.tasks = some (.finish e' ph dir) := by
  obtain ⟨-, h⟩ | ⟨ph, dir, -, h⟩ | ⟨dir, -, h⟩ | ⟨e0, ph, dir, -, h⟩ := s.raise_cases e <;> rw [h] <;>
    exact ⟨_, _, _, rfl⟩

/-- CLEANUP's STOP leaves both lines RELEASED (R112, R205). -/
theorem finalLine_raise_of_cleanup {s : State} (h : isCleanup s.work.handler = true) (e : ErrCode) (l : Line)
    (v : LineState) : finalLine l v (s.raise e).work.tasks = .released := by
  obtain ⟨ph, dir, hh⟩ := exists_of_isCleanup h
  simp only [State.raise, hh]
  cases l <;> rfl

/-- With both pins accepted only a line that can raise ClockTimeout or Nack raises. -/
theorem mayRaise_of_raises {k : Task} {s t : State} (h : raises k s t) (hp : PinsValid s) : mayRaise k = true := by
  have hok (l) : s.pinOk l ≠ false := by cases l <;> simp [hp.1, hp.2]
  obtain ⟨e, b, env, fresh, as, -, ⟨rfl, -⟩ | ⟨-, -, -, -, -, ⟨rfl, -⟩ | ⟨-, ⟨l, -, hn⟩ | ⟨-, hn⟩⟩⟩⟩ := h
  · rfl
  · rfl
  · exact absurd hn (hok l)
  · exact absurd hn (hok .sda)

/-- An error of an INITIALIZED block is raised under CLEANUP, whose STOP leaves the bus idle (R204, R205). -/
theorem busInv_raise {s u : State} (hb : SameBus s u) (hs : PinsInv s)
    (hc : s.st.initialized = true → isCleanup u.work.handler = true) (e : ErrCode) : BusInv (u.raise e) := by
  obtain ⟨e', ph, dir, he⟩ := ending_raise u e
  have hb' : SameBus s (u.raise e) := hb.trans (sameBus_raise u e)
  refine busInv_iff.2 ⟨pinsInv_of_sameBus hb' (by simp [he]) hs, guarded_raise u e, fun hm l => ?_⟩
  obtain hm | ⟨hi, -⟩ := hm
  · simp [he] at hm
  · exact finalLine_raise_of_cleanup (hc (hb'.initialized ▸ hi)) e l _

theorem raises_busInv {k : Task} {ts : List Task} {s t : State} (hts : s.work.tasks = k :: ts)
    (h : raises k (s.setTasks ts) t) (hs : BusInv s) : BusInv t := by
  obtain ⟨hpins, hg, -⟩ := busInv_iff.1 hs
  have hcleanup (hi : s.st.initialized = true) : isCleanup s.work.handler = true := by
    have hk : mayRaise k = true := mayRaise_of_raises h (hpins.1 hi)
    rw [hts, guarded_cons, hk] at hg
    simpa using (Bool.and_eq_true_iff.1 hg).1
  obtain ⟨e, b, env, fresh, as, rfl, -⟩ := h
  refine busInv_raise (s := s) ?_ hpins ?_ e
  · exact ⟨rfl, rfl, rfl, rfl, rfl⟩
  · exact hcleanup

/-- A line that ends the command leaves the bus idle if the block is INITIALIZED then: INIT has pulled up both lines. -/
theorem ends_busInv {k : Task} {ts : List Task} {s t : State} (hk : endsCommand k = true)
    (hts : s.work.tasks = k :: ts) (h : runs k (s.setTasks ts) t) (hs : BusInv s) : BusInv t := by
  obtain ⟨hpins, -, hl⟩ := busInv_iff.1 hs
  have hst : Stopped t := stopped_of_runs hk h
  have hend : ending s.work.tasks = some k := by rw [hts, ending_cons, hk]; rfl
  have hrel (hm : MustRelease s) (l) : s.lineOf l = .released := by
    have := hl hm l
    rwa [hts, finalLine_cons_of_ends hk] at this
  cases k with
  | initDone =>
    obtain ⟨-, rfl⟩ := h
    obtain ⟨hc, hd⟩ := hpins.2 hend
    have hvalid : PinsValid s := by simpa [hts, willPull, endsCommand, PinsValid] using And.intro hc hd
    exact busInv_of_stopped (s := s.setInitialized true) ⟨rfl, rfl, rfl, rfl, rfl⟩ hst ⟨fun _ => hvalid, hpins.2⟩
      fun _ => hrel (.inl hend)
  | releaseDone => cases h; exact busInv_of_uninitialized rfl hst
  | finish e ph d =>
    cases h
    exact busInv_of_stopped (s := s) ⟨rfl, rfl, rfl, rfl, rfl⟩ hst hpins fun hi => hrel (.inr ⟨hi, by simp [hend]⟩)
  | decodeRaw =>
    have hrel' hi := hrel (.inr ⟨hi, by simp [hend]⟩)
    obtain ⟨raw, -, ⟨-, rfl⟩ | ⟨ws, -, -, rfl⟩⟩ := h <;>
      exact busInv_of_stopped (s := s) ⟨rfl, rfl, rfl, rfl, rfl⟩ hst hpins hrel'
  | _ => cases hk

theorem runTask_busInv {k : Task} {ts : List Task} {s t : State} (hts : s.work.tasks = k :: ts)
    (h : runTask k (s.setTasks ts) = .next t) (hs : BusInv s) : BusInv t := by
  obtain hr | hr := runTask_cases h
  · exact raises_busInv hts hr hs
  · cases hk : endsCommand k with
    | true => exact ends_busInv hk hts hr hs
    | false =>
      obtain ⟨pre, hc⟩ := continues_of_runs hk hr
      exact hc.busInv hk hts hs

/-- Settles O53, with the position's invariant kept along: a command that ends at its acceptance finds the bus idle. -/
theorem stepKeepsTheBusIdleBetweenCommands : Obligations.StepKeepsTheBusIdleBetweenCommands := fun _ _ hp hs h =>
  (step_keeps (P := fun s => PositionInv s ∧ BusInv s) (fun _ _ _ => id)
    (fun _ _ _ _ hb hts h ⟨hp, hs⟩ => ⟨runTask_positionInv hb hts h hp, runTask_busInv hts h hs⟩)
    (fun _ _ _ h ⟨hp, hs⟩ => ⟨runHostOp_positionInv h hp, runHostOp_busInv h hp hs⟩) h ⟨hp, hs⟩).2

end Sys2Proof.Proofs
end

section
/-! What the invariants give (R111, R121, R204), and what each pin action, read and sleep does (R26, R100 to R106). -/

namespace Sys2Proof.Proofs

open Sys2Proof.Machine Sys2Proof.Safety

/-! ### Pin actions of an INITIALIZED block (R204) -/

theorem pinOk_of_pinsValid {s : State} (h : PinsValid s) (l : Line) : s.pinOk l = true := by
  cases l
  · exact h.1
  · exact h.2

theorem pinPullup_of_pinOk {s : State} {l : Line} (h : s.pinOk l = true) :
    s.pinPullup l = .ok ((s.setLine l .released).act (.pu l)) := by
  simp [State.pinPullup, h]

theorem pinLow_of_pinOk {s : State} {l : Line} (h : s.pinOk l = true) :
    s.pinLow l = .ok ((s.setLine l .drivenLow).act (.lo l)) := by
  simp [State.pinLow, h]

theorem pinRead_of_pinOk {s : State} {l : Line} (h : s.pinOk l = true) :
    s.pinRead l = .ok ((s.level l).1, (s.level l).2.act (.rd l (s.level l).1)) := by
  simp [State.pinRead, h]

/-! ### The lines that read -/

section
variable {s s' : State} {b : Bool}

theorem runTask_poll_high (h : s.pinRead .scl = .ok (true, s')) : runTask .poll s = .next (s'.setStretch false) := by
  simp only [runTask, runPoll, h]

theorem runTask_poll_low (h : s.pinRead .scl = .ok (false, s')) (hr : s'.work.retryLeft ≠ 0) :
    runTask .poll s = .next (s'.push [.retry, .poll]) := by
  simp only [runTask, runPoll, h, if_neg hr]

theorem runTask_poll_timeout (h : s.pinRead .scl = .ok (false, s')) (hr : s'.work.retryLeft = 0) :
    runTask .poll s = .next ((s'.setStretch false).raise .clockTimeout) := by
  simp only [runTask, runPoll, h, if_pos hr]

theorem runTask_sampleAck (h : s.pinRead .sda = .ok (b, s')) : runTask .sampleAck s = .next (s'.setAckBit b) := by
  simp only [runTask, runSampleAck, h]

theorem runTask_sampleBit (h : s.pinRead .sda = .ok (b, s')) (i : BitVec 3) :
    runTask (.sampleBit i) s =
      .next (s'.setShift (s'.work.shift ||| (BitVec.ofBool b).setWidth 8 <<< i.toNat)) := by
  simp only [runTask, runSampleBit, h]

end

/-- Only the lines that read a line trace a read of it (R103). -/
theorem readsLine_of_trace {k : Task} {s t : State} {l : Line} {b : Bool} (h : runTask k s = .next t)
    (ht : t.trace = s.trace ++ [.rd l b]) : readsLine k l := by
  obtain ⟨e, b', env, fresh, as, rfl, hwhy⟩ | h := runTask_cases h
  · obtain ⟨sf, ts, hd, hr⟩ := State.raise_frame _ e
    rw [hr] at ht
    obtain rfl : as = [.rd l b] := List.append_cancel_left ht
    obtain ⟨rfl, -, ⟨-, -, has, -⟩ | ⟨-, -, has⟩⟩ | ⟨-, -, -, -, has, -⟩ := hwhy
    · cases has; exact .inl ⟨rfl, rfl⟩
    · cases has
    · cases has
  cases k with
  | poll =>
    obtain ⟨-, env, fresh, ⟨-, rfl⟩ | ⟨-, -, rfl⟩⟩ := h <;> simp at ht <;> exact .inl ⟨rfl, ht.1.symm⟩
  | sampleAck =>
    obtain ⟨-, a, env, fresh, -, rfl⟩ := h
    simp at ht
    exact .inr ⟨.inl rfl, ht.1.symm⟩
  | sampleBit i =>
    obtain ⟨-, d, env, fresh, -, rfl⟩ := h
    simp at ht
    exact .inr ⟨.inr ⟨i, rfl⟩, ht.1.symm⟩
  | pullup l' => obtain ⟨-, rfl⟩ := h; simp at ht
  | low l' => obtain ⟨-, rfl⟩ := h; simp at ht
  | reset l' => cases h; simp [State.pinReset] at ht
  | checkAck => obtain ⟨-, rfl⟩ := h; simp at ht
  | initDone => obtain ⟨-, rfl⟩ := h; simp at ht
  | writeData j n => obtain ⟨-, rfl⟩ | ⟨-, b, -, rfl⟩ := h <;> simp at ht
  | readData i n => obtain ⟨-, rfl⟩ | ⟨-, rfl⟩ := h <;> simp at ht
  | decodeRaw => obtain ⟨raw, -, ⟨-, rfl⟩ | ⟨ws, -, -, rfl⟩⟩ := h <;> simp at ht
  | _ => cases h; simp [State.sleep, State.releaseDone] at ht

theorem lineOf_of_readsLine {s : State} {k : Task} {ts : List Task} {l : Line} (hs : ReadsInv s)
    (hts : s.work.tasks = k :: ts) (hk : readsLine k l) : s.lineOf l = .released := by
  rw [ReadsInv, hts] at hs
  obtain ⟨rfl, rfl⟩ | ⟨rfl | ⟨i, rfl⟩, rfl⟩ := hk <;>
    exact of_decide_eq_true (Bool.and_eq_true_iff.1 hs).1

/-- Settles O59: an idle block has no line left to run, PinsInv accepts both pins, and only the lines that read a line
trace a read. -/
theorem invariantsGiveTheRules : Obligations.InvariantsGiveTheRules := by
  refine ⟨fun s hp hs hb hi => ?_, fun s l hs hi => ?_, fun s t l b hs h ht => ?_⟩
  · exact ⟨released_of_idle hp hs hb hi .scl, released_of_idle hp hs hb hi .sda⟩
  · obtain ⟨⟨hvalid, -⟩, -⟩ := hs
    have hok := pinOk_of_pinsValid (hvalid hi) l
    exact ⟨⟨_, pinPullup_of_pinOk hok⟩, ⟨_, pinLow_of_pinOk hok⟩, ⟨_, pinRead_of_pinOk hok⟩⟩
  · unfold seqStep at h
    split at h
    · cases h; simp at ht
    · next k ts hts => exact lineOf_of_readsLine hs hts (readsLine_of_trace h ht)

/-! ### What the Pin Driver's lines do -/

/-- The next scripted draw of a line is the draw, and the draws of the other line stay (R26; log 3). -/
theorem draw_scripted {s : State} {l : Line} {d : Bool} {ds : List Bool} (h : drawsOf s l = d :: ds) :
    (s.draw l).1 = d ∧ drawsOf (s.draw l).2 l = ds ∧ ∀ l', l' ≠ l → drawsOf (s.draw l).2 l' = drawsOf s l' := by
  cases l with
  | scl =>
    have hd : s.draw .scl = (d, { s with env := { s.env with sclDraws := ds } }) := by
      simp [State.draw, show s.env.sclDraws = d :: ds from h]
    rw [hd]
    refine ⟨rfl, rfl, fun l' hl => ?_⟩
    cases l' with
    | scl => exact absurd rfl hl
    | sda => rfl
  | sda =>
    rw [draw_sda_scripted h]
    refine ⟨rfl, rfl, fun l' hl => ?_⟩
    cases l' with
    | scl => rfl
    | sda => exact absurd rfl hl

/-- A line that reads SCL or SDA with an accepted pin traces the level, leaves both line-state variables, and takes the
draws that the level takes; the poll may raise ClockTimeout after that (R26, R106, R116, R118). -/
theorem runTask_reads {k : Task} {s : State} {l : Line} (hk : readsLine k l) (hp : s.pinOk l = true) :
    ∃ t, runTask k s = .next t ∧ t.trace = s.trace ++ [.rd l (s.level l).1] ∧ (∀ l', t.lineOf l' = s.lineOf l') ∧
      t.env = (s.level l).2.env := by
  obtain ⟨env, fresh, hl⟩ := s.level_frame l
  have hr := pinRead_of_pinOk hp
  rw [hl] at hr ⊢
  generalize (s.level l).1 = a at hr ⊢
  obtain ⟨rfl, rfl⟩ | ⟨rfl | ⟨i, rfl⟩, rfl⟩ := hk
  · cases a with
    | true => exact ⟨_, runTask_poll_high hr, rfl, lineOf_eq rfl rfl, rfl⟩
    | false =>
      by_cases hz : s.work.retryLeft = 0
      · refine ⟨_, runTask_poll_timeout hr hz, ?_⟩
        obtain ⟨sf, ts, hd, he⟩ := State.raise_frame _ .clockTimeout
        rw [he]
        exact ⟨rfl, lineOf_eq rfl rfl, rfl⟩
      · exact ⟨_, runTask_poll_low hr hz, rfl, lineOf_eq rfl rfl, rfl⟩
  · exact ⟨_, runTask_sampleAck hr, rfl, lineOf_eq rfl rfl, rfl⟩
  · exact ⟨_, runTask_sampleBit hr i, rfl, lineOf_eq rfl rfl, rfl⟩

/-- The same line with a refused pin raises InvalidPin, the poll after clearing STRETCH_WAIT (R103, R106). -/
theorem runTask_reads_refused {k : Task} {s : State} {l : Line} (hk : readsLine k l) (hp : s.pinOk l = false) :
    runTask k s = .next ((if k = .poll then s.setStretch false else s).raise .invalidPin) := by
  obtain ⟨rfl, rfl⟩ | ⟨rfl | ⟨i, rfl⟩, rfl⟩ := hk <;>
    simp [runTask, runPoll, runSampleAck, runSampleBit, State.pinRead, hp]

/-- Settles O18: one line of the pseudocode at a time; a read's level is 0 or the next draw. -/
theorem pinActionsDoWhatTheRulesSay : Obligations.PinActionsDoWhatTheRulesSay := by
  intro s l ts
  have hset : (s.setTasks ts).pinOk l = s.pinOk l := by cases l <;> rfl
  have hline (l') : s.lineOf l' = (s.setTasks ts).lineOf l' := lineOf_eq rfl rfl l'
  refine ⟨fun hts hp => ?_, fun hts hp => ?_, fun hts hp => ?_, fun k hk hts hp => ?_, fun k hk hts hp => ?_,
    fun hts => ?_, fun hts => ?_, fun hts => ?_⟩
  · rw [seqStep_cons hts, runTask, pinPullup_of_pinOk (hset.trans hp)]
    rfl
  · rw [seqStep_cons hts, runTask, pinLow_of_pinOk (hset.trans hp)]
    rfl
  · obtain hts | hts := hts <;> rw [seqStep_cons hts] <;>
      simp [runTask, State.pinPullup, State.pinLow, hset, hp, orRaise]
  · rw [seqStep_cons hts, runTask_reads_refused hk (hset.trans hp)]
  · obtain ⟨t, hstep, htr, hlines, henv⟩ := runTask_reads (s := s.setTasks ts) hk (hset.trans hp)
    refine ⟨_, t, (seqStep_cons hts).trans hstep, htr, fun l' => (hlines l').trans ?_, fun hd => ?_,
      fun hd d ds hds => ?_⟩
    · exact lineOf_eq rfl rfl l'
    · rw [State.level_driven (hline l ▸ hd)] at henv ⊢
      exact ⟨rfl, henv⟩
    · rw [State.level_drawn (hline l ▸ hd)] at henv ⊢
      have hdraws (l') : drawsOf t l' = drawsOf ((s.setTasks ts).draw l).2 l' := by cases l' <;> simp [drawsOf, henv]
      obtain ⟨ha, hsame, hother⟩ := draw_scripted (s := s.setTasks ts) (l := l) (by cases l <;> exact hds)
      refine ⟨ha, (hdraws l).trans hsame, fun l' hl' => (hdraws l').trans ((hother l' hl').trans ?_)⟩
      cases l' <;> rfl
  · exact seqStep_cons hts
  · exact seqStep_cons hts
  · exact seqStep_cons hts

end Sys2Proof.Proofs
end

section
/-! Runs of the sequencer through the lines of a micro-operation, and WAIT_CLOCK_HIGH (R106, R107). -/

namespace Sys2Proof.Proofs

open Sys2Proof.Machine Sys2Proof.Safety

/-! ### Runs -/

theorem reaches_refl (s : State) : Reaches s s := ⟨0, rfl⟩

theorem reaches_trans {s t u : State} (h : Reaches s t) (h' : Reaches t u) : Reaches s u := by
  obtain ⟨j, hj⟩ := h
  obtain ⟨k, hk⟩ := h'
  exact ⟨j + k, run_add hj hk⟩

theorem reaches_of_eq {s t u : State} (h : Reaches s t) (e : t = u) : Reaches s u := e ▸ h

theorem reaches_from_eq {s t u : State} (h : Reaches t u) (e : s = t) : Reaches s u := e ▸ h

/-- Every step is the sequencer's: BUSY = 1 and the host has no statement left (R72). -/
structure Running (s : State) : Prop where
  busy : s.st.busy = true
  hostDone : HostDone s

/-- One line of the pseudocode. -/
theorem reaches_line {k : Task} {ts : List Task} {s t : State} (hr : Running s) (hts : s.work.tasks = k :: ts)
    (h : runTask k (s.setTasks ts) = .next t) : Reaches s t :=
  ⟨1, run_step ((step_sequencer hr.busy hr.hostDone).trans ((seqStep_cons hts).trans h))⟩

/-- States that differ in no field, TRACE apart. -/
theorem eq_of_trace {s t : State} (h : { s with trace := [] } = { t with trace := [] }) (ht : s.trace = t.trace) :
    s = t := by
  cases s
  cases t
  simp_all

/-! ### Reads of a RELEASED line -/

/-- A read of SCL that is RELEASED answers the next draw (R26, R103). -/
theorem pinRead_scl_scripted {s : State} {d : Bool} {ds : List Bool} (hl : s.st.scl = .released)
    (hp : s.pinOk .scl = true) (hd : s.env.sclDraws = d :: ds) :
    s.pinRead .scl = .ok (d, ({ s with env := { s.env with sclDraws := ds } } : State).act (.rd .scl d)) := by
  have hdraw : s.draw .scl = (d, { s with env := { s.env with sclDraws := ds } }) := by simp [State.draw, hd]
  rw [pinRead_of_pinOk hp, State.level_drawn (l := .scl) (by simp [State.lineOf, hl]), hdraw]

/-- A read of SDA that is RELEASED answers the next draw (R26, R103). -/
theorem pinRead_sda_scripted {s : State} {d : Bool} {ds : List Bool} (hl : s.st.sda = .released)
    (hp : s.pinOk .sda = true) (hd : s.env.sdaDraws = d :: ds) :
    s.pinRead .sda = .ok (d, ({ s with env := { s.env with sdaDraws := ds } } : State).act (.rd .sda d)) := by
  rw [pinRead_of_pinOk hp, State.level_drawn (l := .sda) (by simp [State.lineOf, hl]), draw_sda_scripted hd]

/-! ### WAIT_CLOCK_HIGH -/

theorem stretchTrace_succ (p k : Nat) : stretchTrace p (k + 1) = [.rd .scl false, .slp p] ++ stretchTrace p k := by
  simp [stretchTrace, List.replicate_succ]

section
variable {s : State} {ts : List Task} {ds : List Bool}

/-- WAIT_CLOCK_HIGH's first lines: it enters its loop with the whole retry budget (R106, R107). -/
theorem reaches_waitHigh (hr : Running s) (hts : s.work.tasks = .waitHigh :: ts) :
    Reaches s { s with
      st := { s.st with stretchWait := true }
      work := { s.work with tasks := .poll :: ts, retryLeft := s.cur.retries } } :=
  reaches_line hr hts rfl

/-- A read of 1 ends the loop (R106). -/
theorem reaches_poll_high (hr : Running s) (hts : s.work.tasks = .poll :: ts) (hl : s.st.scl = .released)
    (hp : s.pinOk .scl = true) (hd : s.env.sclDraws = true :: ds) :
    Reaches s { s with
      st := { s.st with stretchWait := false }
      work := { s.work with tasks := ts }
      env := { s.env with sclDraws := ds }
      trace := s.trace ++ [.rd .scl true] } :=
  reaches_line hr hts (runTask_poll_high (pinRead_scl_scripted (s := s.setTasks ts) hl hp hd))

/-- A read of 0 with no retry left raises ClockTimeout (R106). -/
theorem reaches_poll_timeout (hr : Running s) (hts : s.work.tasks = .poll :: ts) (hl : s.st.scl = .released)
    (hp : s.pinOk .scl = true) (hd : s.env.sclDraws = false :: ds) (hleft : s.work.retryLeft = 0) :
    Reaches s (State.raise { s with
      st := { s.st with stretchWait := false }
      work := { s.work with tasks := ts }
      env := { s.env with sclDraws := ds }
      trace := s.trace ++ [.rd .scl false] } .clockTimeout) :=
  reaches_line hr hts (runTask_poll_timeout (pinRead_scl_scripted (s := s.setTasks ts) hl hp hd) hleft)

/-- A read of 0 with a retry left goes round the loop (R106). -/
theorem reaches_poll_low (hr : Running s) (hts : s.work.tasks = .poll :: ts) (hl : s.st.scl = .released)
    (hp : s.pinOk .scl = true) (hd : s.env.sclDraws = false :: ds) (hleft : s.work.retryLeft ≠ 0) :
    Reaches s { s with
      work := { s.work with tasks := .retry :: .poll :: ts }
      env := { s.env with sclDraws := ds }
      trace := s.trace ++ [.rd .scl false] } :=
  reaches_line hr hts (runTask_poll_low (pinRead_scl_scripted (s := s.setTasks ts) hl hp hd) hleft)

/-- The sleep before the next read (R106). -/
theorem reaches_retry (hr : Running s) (hts : s.work.tasks = .retry :: ts) :
    Reaches s { s with
      work := { s.work with tasks := ts, retryLeft := s.work.retryLeft - 1 }
      trace := s.trace ++ [.slp s.cur.period.toNat] } :=
  reaches_line hr hts rfl

theorem reaches_round (hr : Running s) (hts : s.work.tasks = .poll :: ts) (hl : s.st.scl = .released)
    (hp : s.pinOk .scl = true) (hd : s.env.sclDraws = false :: ds) (hleft : s.work.retryLeft ≠ 0) :
    Reaches s { s with
      work := { s.work with tasks := .poll :: ts, retryLeft := s.work.retryLeft - 1 }
      env := { s.env with sclDraws := ds }
      trace := s.trace ++ [.rd .scl false, .slp s.cur.period.toNat] } :=
  reaches_trans (reaches_poll_low hr hts hl hp hd hleft)
    (reaches_of_eq (reaches_retry ⟨hr.busy, hr.hostDone⟩ rfl) (eq_of_trace rfl (by simp)))

/-- k reads of 0 within the retry budget: the loop goes on with k retries fewer (R106). -/
theorem reaches_rounds {k : Nat} {left : Byte} (hr : Running s) (hts : s.work.tasks = .poll :: ts)
    (hl : s.st.scl = .released) (hp : s.pinOk .scl = true) (hk : s.work.retryLeft.toNat = left.toNat + k)
    (hd : s.env.sclDraws = List.replicate k false ++ ds) :
    Reaches s { s with
      work := { s.work with tasks := .poll :: ts, retryLeft := left }
      env := { s.env with sclDraws := ds }
      trace := s.trace ++ stretchTrace s.cur.period.toNat k } := by
  induction k generalizing s with
  | zero =>
    obtain rfl : s.work.retryLeft = left := BitVec.eq_of_toNat_eq hk
    obtain rfl : s.env.sclDraws = ds := hd
    rw [← hts]
    exact reaches_of_eq (reaches_refl s) (eq_of_trace rfl (List.append_nil _).symm)
  | succ k ih =>
    have hleft : s.work.retryLeft ≠ 0 := by
      intro h0
      simp [h0] at hk
    have hk' : (s.work.retryLeft - 1).toNat = left.toNat + k := by bv_omega
    refine reaches_trans (reaches_round hr hts hl hp hd hleft) ?_
    refine reaches_of_eq (ih ⟨hr.busy, hr.hostDone⟩ rfl hl hp hk' rfl) (eq_of_trace rfl ?_)
    simp [stretchTrace_succ]

end

/-- Settles O20: the rounds that read 0, then the read of 1 that ends the loop. -/
theorem waitClockHighEndsWhenSclReadsHigh : Obligations.WaitClockHighEndsWhenSclReadsHigh := by
  intro s ts k ds hb hn hts hl hp hk hd
  have hleft : s.cur.retries.toNat = (s.cur.retries - BitVec.ofNat 8 k).toNat + k := by bv_omega
  refine reaches_trans (reaches_waitHigh ⟨hb, hn⟩ hts) ?_
  refine reaches_trans (reaches_rounds ⟨hb, hn⟩ rfl hl hp hleft hd) ?_
  exact reaches_of_eq (reaches_poll_high ⟨hb, hn⟩ rfl hl hp rfl) rfl

/-- Settles O21: as many rounds as the retry budget, then the read of 0 that finds none left. -/
theorem waitClockHighTimesOut : Obligations.WaitClockHighTimesOut := by
  intro s ts ds hb hn hts hl hp hd
  rw [List.replicate_succ', List.append_assoc] at hd
  have hleft : s.cur.retries.toNat = (0 : Byte).toNat + s.cur.retries.toNat := (Nat.zero_add _).symm
  refine reaches_trans (reaches_waitHigh ⟨hb, hn⟩ hts) ?_
  refine reaches_trans (reaches_rounds ⟨hb, hn⟩ rfl hl hp hleft hd) ?_
  exact reaches_of_eq (reaches_poll_timeout ⟨hb, hn⟩ rfl hl hp rfl rfl) rfl

end Sys2Proof.Proofs
end

section
/-! Runs of START, STOP, WRITE_BYTE and READ_BYTE with no stretching (R110 to R120). -/

namespace Sys2Proof.Proofs

open Sys2Proof.Machine Sys2Proof.Safety

/-- Every step is the sequencer's, and no pin action fails. -/
structure Ready (s : State) : Prop extends Running s where
  pins : PinsValid s

theorem Ready.of_eq {s t : State} (h : Ready s) (hb : t.st.busy = s.st.busy) (hh : t.host = s.host) (hc : t.cur = s.cur)
    (hp : t.plat = s.plat) : Ready t where
  busy := hb.trans h.busy
  hostDone := by simpa only [HostDone, State.hostOp?, hh] using h.hostDone
  pins := by simpa only [PinsValid, State.pinOk, State.pinOf, hc, hp] using h.pins

/-! ### Pin actions and sleeps -/

/-- The lines that set a line and the sleeps between them. -/
def isPinLine : Task → Bool
  | .pullup _ => true
  | .low _ => true
  | .sleepHalf => true
  | _ => false

/-- What such a line traces, CUR_HALF being h (R101, R102, R105). -/
def pinActions (h : Nat) : Task → List Action
  | .pullup l => [.pu l]
  | .low l => [.lo l]
  | .sleepHalf => [.slp h]
  | _ => []

section
variable {s : State} {ts : List Task} {ds : List Bool}

theorem reaches_pinLine {k : Task} (hr : Ready s) (hk : isPinLine k = true) (hts : s.work.tasks = k :: ts) :
    Reaches s { s with
      st := { s.st with scl := lineBy .scl s.st.scl k, sda := lineBy .sda s.st.sda k }
      work := { s.work with tasks := ts }
      trace := s.trace ++ pinActions s.cur.half.toNat k } := by
  cases k with
  | pullup l =>
    have hok : (s.setTasks ts).pinOk l = true := pinOk_of_pinsValid hr.pins l
    refine reaches_of_eq (reaches_line hr.toRunning hts (by rw [runTask, pinPullup_of_pinOk hok]; rfl)) ?_
    cases l <;> rfl
  | low l =>
    have hok : (s.setTasks ts).pinOk l = true := pinOk_of_pinsValid hr.pins l
    refine reaches_of_eq (reaches_line hr.toRunning hts (by rw [runTask, pinLow_of_pinOk hok]; rfl)) ?_
    cases l <;> rfl
  | sleepHalf => exact reaches_line hr.toRunning hts rfl
  | _ => cases hk

/-- A run through such lines sets the lines and traces the actions in turn. -/
theorem reaches_pinLines {ks : List Task} (hr : Ready s) (hk : ks.all isPinLine = true)
    (hts : s.work.tasks = ks ++ ts) :
    Reaches s { s with
      st := { s.st with scl := linesBy .scl s.st.scl ks, sda := linesBy .sda s.st.sda ks }
      work := { s.work with tasks := ts }
      trace := s.trace ++ ks.flatMap (pinActions s.cur.half.toNat) } := by
  induction ks generalizing s with
  | nil =>
    obtain rfl : s.work.tasks = ts := hts
    exact reaches_of_eq (reaches_refl s) (eq_of_trace rfl (List.append_nil _).symm)
  | cons k ks ih =>
    obtain ⟨hk, hks⟩ : isPinLine k = true ∧ ks.all isPinLine = true := by simpa using hk
    refine reaches_trans (reaches_pinLine hr hk hts) ?_
    refine reaches_of_eq (ih (hr.of_eq rfl rfl rfl rfl) hks rfl) (eq_of_trace rfl ?_)
    simp

/-! ### Reads with no stretching -/

/-- WAIT_CLOCK_HIGH with no stretching: one read of SCL (R106). -/
theorem reaches_waitHigh_high (hr : Ready s) (hts : s.work.tasks = .waitHigh :: ts) (hl : s.st.scl = .released)
    (hd : s.env.sclDraws = true :: ds) :
    Reaches s { s with
      st := { s.st with stretchWait := false }
      work := { s.work with tasks := ts, retryLeft := s.cur.retries }
      env := { s.env with sclDraws := ds }
      trace := s.trace ++ [.rd .scl true] } :=
  reaches_trans (reaches_waitHigh hr.toRunning hts)
    (reaches_of_eq (reaches_poll_high ⟨hr.busy, hr.hostDone⟩ rfl hl hr.pins.1 hd) rfl)

/-- The ACK sample of a RELEASED SDA keeps the next draw (R116). -/
theorem reaches_sampleAck {d : Bool} (hr : Ready s) (hts : s.work.tasks = .sampleAck :: ts) (hl : s.st.sda = .released)
    (hd : s.env.sdaDraws = d :: ds) :
    Reaches s { s with
      work := { s.work with tasks := ts, ackBit := d }
      env := { s.env with sdaDraws := ds }
      trace := s.trace ++ [.rd .sda d] } :=
  reaches_line hr.toRunning hts (runTask_sampleAck (pinRead_sda_scripted (s := s.setTasks ts) hl hr.pins.2 hd))

/-- The sample of a data bit from a RELEASED SDA puts the next draw into SHIFT (R118). -/
theorem reaches_sampleBit {d : Bool} {i : BitVec 3} (hr : Ready s) (hts : s.work.tasks = .sampleBit i :: ts)
    (hl : s.st.sda = .released) (hd : s.env.sdaDraws = d :: ds) :
    Reaches s { s with
      work := { s.work with tasks := ts, shift := s.work.shift ||| (BitVec.ofBool d).setWidth 8 <<< i.toNat }
      env := { s.env with sdaDraws := ds }
      trace := s.trace ++ [.rd .sda d] } :=
  reaches_line hr.toRunning hts (runTask_sampleBit (pinRead_sda_scripted (s := s.setTasks ts) hl hr.pins.2 hd) i)

/-! ### START and STOP -/

theorem reaches_fsm {f : FsmState} (hr : Ready s) (hts : s.work.tasks = .fsm f :: ts) :
    Reaches s { s with st := { s.st with fsm := f }, work := { s.work with tasks := ts } } :=
  reaches_line hr.toRunning hts rfl

theorem reaches_bit {f : FsmState} {i : BitVec 3} (hr : Ready s) (hts : s.work.tasks = .bit f i :: ts) :
    Reaches s { s with st := { s.st with fsm := f }, work := { s.work with tasks := ts, biti := i } } :=
  reaches_line hr.toRunning hts rfl

theorem reaches_start (hr : Ready s) (hts : s.work.tasks = start ++ ts) (hd : s.env.sclDraws = true :: ds) :
    Reaches s { s with
      st := { s.st with fsm := .started, stretchWait := false, scl := .drivenLow, sda := .drivenLow }
      work := { s.work with tasks := ts, retryLeft := s.cur.retries }
      env := { s.env with sclDraws := ds }
      trace := s.trace ++ startTrace s.cur.half.toNat } := by
  refine reaches_trans (reaches_fsm hr hts) ?_
  refine reaches_trans (reaches_pinLines (ks := [.pullup .scl]) (hr.of_eq rfl rfl rfl rfl) rfl rfl) ?_
  refine reaches_trans (reaches_waitHigh_high (hr.of_eq rfl rfl rfl rfl) rfl rfl hd) ?_
  refine reaches_of_eq (reaches_pinLines (ks := [.low .sda, .sleepHalf, .low .scl, .sleepHalf])
    (hr.of_eq rfl rfl rfl rfl) rfl rfl) (eq_of_trace rfl ?_)
  simp [pinActions, startTrace]

theorem reaches_stop (hr : Ready s) (hts : s.work.tasks = stop ++ ts) :
    Reaches s { s with
      st := { s.st with fsm := .stopped, scl := .released, sda := .released }
      work := { s.work with tasks := ts }
      trace := s.trace ++ stopTrace s.cur.half.toNat } := by
  refine reaches_trans (reaches_fsm hr hts) ?_
  exact reaches_of_eq (reaches_pinLines (hr.of_eq rfl rfl rfl rfl) rfl rfl) (eq_of_trace rfl rfl)

end

/-- Settles O22. -/
theorem startAndStopEndWithTheirLines : Obligations.StartAndStopEndWithTheirLines := fun _ _ hb hn hp =>
  ⟨fun _ => reaches_start ⟨⟨hb, hn⟩, hp⟩, reaches_stop ⟨⟨hb, hn⟩, hp⟩⟩

end Sys2Proof.Proofs
end

section
/-! Runs of WRITE_BYTE and READ_BYTE with no stretching (R114 to R120). -/

namespace Sys2Proof.Proofs

open Sys2Proof.Machine Sys2Proof.Safety

section
variable {s : State} {ts : List Task} {ds es : List Bool}

/-- The bits of a byte in the order of the wire (R64). -/
theorem bitsOf_eq_map (b : Byte) : bitsOf b = bitsDown.map fun i => b.getLsbD i.toNat := rfl

/-! ### WRITE_BYTE -/

theorem reaches_writeBit {b : Byte} {i : BitVec 3} (hr : Ready s) (hts : s.work.tasks = writeBit b i ++ ts)
    (hd : s.env.sclDraws = true :: ds) :
    Reaches s { s with
      st := { s.st with
        fsm := .writingBit, stretchWait := false, scl := .released
        sda := if b.getLsbD i.toNat then .released else .drivenLow }
      work := { s.work with tasks := ts, retryLeft := s.cur.retries, biti := i }
      env := { s.env with sclDraws := ds }
      trace := s.trace ++ writeBitTrace s.cur.half.toNat (b.getLsbD i.toNat) } := by
  unfold writeBit at hts
  refine reaches_trans (reaches_bit hr hts) ?_
  cases b.getLsbD i.toNat <;>
    (refine reaches_trans (reaches_pinLines (ks := [.low .scl, sdaTo _, .sleepHalf, .pullup .scl, .sleepHalf])
       (hr.of_eq rfl rfl rfl rfl) rfl rfl) ?_
     refine reaches_of_eq (reaches_waitHigh_high (hr.of_eq rfl rfl rfl rfl) rfl rfl hd) (eq_of_trace rfl ?_)
     simp [sdaTo, pinActions, writeBitTrace])

/-- The data bits of the listed indices: what follows is to hold for whatever FSM_STATE, lines and working values the
last bit leaves. -/
theorem reaches_writeBits {b : Byte} {is : List (BitVec 3)} {u : State} (hr : Ready s)
    (hts : s.work.tasks = is.flatMap (writeBit b) ++ ts) (hd : s.env.sclDraws = List.replicate is.length true ++ ds)
    (hrest : ∀ f w c d r i, Reaches { s with
      st := { s.st with fsm := f, stretchWait := w, scl := c, sda := d }
      work := { s.work with tasks := ts, retryLeft := r, biti := i }
      env := { s.env with sclDraws := ds }
      trace := s.trace ++ (is.map fun i => b.getLsbD i.toNat).flatMap (writeBitTrace s.cur.half.toNat) } u) :
    Reaches s u := by
  induction is generalizing s with
  | nil =>
    obtain rfl : s.work.tasks = ts := hts
    obtain rfl : s.env.sclDraws = ds := hd
    exact reaches_from_eq (hrest s.st.fsm s.st.stretchWait s.st.scl s.st.sda s.work.retryLeft s.work.biti)
      (eq_of_trace rfl (List.append_nil _).symm)
  | cons i is ih =>
    rw [List.flatMap_cons, List.append_assoc] at hts
    refine reaches_trans (reaches_writeBit hr hts hd) (ih (hr.of_eq rfl rfl rfl rfl) rfl rfl fun f w c d r j => ?_)
    exact reaches_from_eq (hrest f w c d r j) (eq_of_trace rfl (by simp))

theorem runTask_checkAck (s : State) : runTask .checkAck s = .next (if s.work.ackBit then s.raise .nack else s) := by
  cases h : s.work.ackBit <;> simp [runTask, h]

/-- The ACK phase samples the ACK bit and raises Nack, after the last `pin_low(SCL)`, if it is 1 (R116). -/
theorem reaches_ackPhase {nack : Bool} (hr : Ready s) (hts : s.work.tasks = ackPhase ++ ts)
    (hd : s.env.sclDraws = true :: ds) (he : s.env.sdaDraws = nack :: es) :
    let u : State := { s with
      st := { s.st with fsm := .ackPhase, stretchWait := false, scl := .drivenLow, sda := .released }
      work := { s.work with tasks := ts, retryLeft := s.cur.retries, biti := 0, ackBit := nack }
      env := { s.env with sclDraws := ds, sdaDraws := es }
      trace := s.trace ++ ackTrace s.cur.half.toNat nack }
    Reaches s (if nack then u.raise .nack else u) := by
  intro u
  refine reaches_trans (reaches_bit hr hts) ?_
  refine reaches_trans (reaches_pinLines (ks := [.low .scl, .pullup .sda, .sleepHalf, .pullup .scl])
    (hr.of_eq rfl rfl rfl rfl) rfl rfl) ?_
  refine reaches_trans (reaches_waitHigh_high (hr.of_eq rfl rfl rfl rfl) rfl rfl hd) ?_
  refine reaches_trans (reaches_sampleAck (hr.of_eq rfl rfl rfl rfl) rfl rfl he) ?_
  refine reaches_trans (reaches_pinLines (ks := [.low .scl]) (hr.of_eq rfl rfl rfl rfl) rfl rfl) ?_
  refine reaches_of_eq (reaches_line ⟨hr.busy, hr.hostDone⟩ rfl (runTask_checkAck _)) ?_
  refine congrArg (fun v : State => if nack then v.raise .nack else v) (eq_of_trace (t := u) rfl ?_)
  simp [u, pinActions, ackTrace]

/-! ### READ_BYTE -/

/-- SHIFT after the bits of v of the listed indices are sampled, w before them (R118). -/
def sampled (v : Byte) (w : Byte) (is : List (BitVec 3)) : Byte :=
  is.foldl (fun w i => w ||| (BitVec.ofBool (v.getLsbD i.toNat)).setWidth 8 <<< i.toNat) w

/-- Eight samples, each shifted to its place, make the byte if SHIFT was cleared before (R118, R120). -/
theorem sampled_bitsDown (v : Byte) {w : Byte} (hw : w = 0) : sampled v w bitsDown = v := by
  subst hw
  ext i hi
  interval_cases i <;> simp [sampled, bitsDown]

theorem reaches_readBit {d : Bool} {i : BitVec 3} (hr : Ready s) (hts : s.work.tasks = readBit i ++ ts)
    (hl : s.st.sda = .released) (hd : s.env.sclDraws = true :: ds) (he : s.env.sdaDraws = d :: es) :
    Reaches s { s with
      st := { s.st with fsm := .readingBit, stretchWait := false, scl := .drivenLow }
      work := { s.work with
        tasks := ts, retryLeft := s.cur.retries, biti := i
        shift := s.work.shift ||| (BitVec.ofBool d).setWidth 8 <<< i.toNat }
      env := { s.env with sclDraws := ds, sdaDraws := es }
      trace := s.trace ++ readBitTrace s.cur.half.toNat d } := by
  refine reaches_trans (reaches_bit hr hts) ?_
  refine reaches_trans (reaches_pinLines (ks := [.sleepHalf, .pullup .scl]) (hr.of_eq rfl rfl rfl rfl) rfl rfl) ?_
  refine reaches_trans (reaches_waitHigh_high (hr.of_eq rfl rfl rfl rfl) rfl rfl hd) ?_
  refine reaches_trans (reaches_sampleBit (hr.of_eq rfl rfl rfl rfl) rfl hl he) ?_
  refine reaches_of_eq (reaches_pinLines (ks := [.low .scl]) (hr.of_eq rfl rfl rfl rfl) rfl rfl) (eq_of_trace rfl ?_)
  simp [pinActions, readBitTrace]

/-- The data bits of the listed indices: what follows is to hold for whatever FSM_STATE, SCL and working values the last
bit leaves. -/
theorem reaches_readBits {v : Byte} {is : List (BitVec 3)} {u : State} (hr : Ready s)
    (hts : s.work.tasks = is.flatMap readBit ++ ts) (hl : s.st.sda = .released)
    (hd : s.env.sclDraws = List.replicate is.length true ++ ds)
    (he : s.env.sdaDraws = (is.map fun i => v.getLsbD i.toNat) ++ es)
    (hrest : ∀ f w c r i, Reaches { s with
      st := { s.st with fsm := f, stretchWait := w, scl := c }
      work := { s.work with tasks := ts, retryLeft := r, biti := i, shift := sampled v s.work.shift is }
      env := { s.env with sclDraws := ds, sdaDraws := es }
      trace := s.trace ++ (is.map fun i => v.getLsbD i.toNat).flatMap (readBitTrace s.cur.half.toNat) } u) :
    Reaches s u := by
  induction is generalizing s with
  | nil =>
    obtain rfl : s.work.tasks = ts := hts
    obtain rfl : s.env.sclDraws = ds := hd
    obtain rfl : s.env.sdaDraws = es := he
    exact reaches_from_eq (hrest s.st.fsm s.st.stretchWait s.st.scl s.work.retryLeft s.work.biti)
      (eq_of_trace rfl (List.append_nil _).symm)
  | cons i is ih =>
    rw [List.flatMap_cons, List.append_assoc] at hts
    refine reaches_trans (reaches_readBit hr hts hl hd he) ?_
    refine ih (hr.of_eq rfl rfl rfl rfl) rfl hl rfl rfl fun f w c r j => ?_
    exact reaches_from_eq (hrest f w c r j) (eq_of_trace rfl (by simp))

/-- The ACK/NACK phase drives SDA low for ACK and releases it for NACK (R119). -/
theorem reaches_acknackPhase {ack : Bool} (hr : Ready s) (hts : s.work.tasks = acknackPhase ack ++ ts)
    (hd : s.env.sclDraws = true :: ds) :
    Reaches s { s with
      st := { s.st with fsm := .acknackPhase, stretchWait := false, scl := .drivenLow, sda := .released }
      work := { s.work with tasks := ts, retryLeft := s.cur.retries, biti := 0 }
      env := { s.env with sclDraws := ds }
      trace := s.trace ++ acknackTrace s.cur.half.toNat ack } := by
  refine reaches_trans (reaches_bit hr hts) ?_
  cases ack <;>
    (refine reaches_trans (reaches_pinLines (ks := [sdaTo _, .sleepHalf, .pullup .scl, .sleepHalf])
       (hr.of_eq rfl rfl rfl rfl) rfl rfl) ?_
     refine reaches_trans (reaches_waitHigh_high (hr.of_eq rfl rfl rfl rfl) rfl rfl hd) ?_
     refine reaches_of_eq (reaches_pinLines (ks := [.low .scl, .pullup .sda]) (hr.of_eq rfl rfl rfl rfl) rfl rfl)
       (eq_of_trace rfl ?_)
     simp [sdaTo, pinActions, acknackTrace])

end

theorem writeByteTrace_length (h : Nat) (nack : Bool) (b : Byte) : (writeByteTrace h nack b).length = 55 := rfl

theorem readByteTrace_length (h : Nat) (ack : Bool) (v : Byte) : (readByteTrace h ack v).length = 48 := rfl

/-- Settles O23: eight data bits, then the ACK phase, which sets whatever the bits left behind. -/
theorem writeByteSendsBitsAndSamplesAck : Obligations.WriteByteSendsBitsAndSamplesAck := by
  intro s b nack ts scl sda hb hn hp hts hd he
  have hr : Ready s := ⟨⟨hb, hn⟩, hp⟩
  rw [writeByte, List.append_assoc] at hts
  refine ⟨writeByteTrace_length _ nack b, ?_⟩
  refine reaches_writeBits hr hts hd fun f w c d r i => ?_
  refine reaches_of_eq (reaches_ackPhase (hr.of_eq rfl rfl rfl rfl) rfl rfl he) ?_
  refine congrArg (fun v : State => if nack then v.raise .nack else v) (eq_of_trace rfl ?_)
  simp [writeByteTrace, bitsOf_eq_map]

/-- Settles O24: SDA released and SHIFT cleared, eight samples, then the ACK/NACK phase. -/
theorem readByteAssemblesBitsAndSendsAck : Obligations.ReadByteAssemblesBitsAndSendsAck := by
  intro s v ack ts scl sda hb hn hp hts hd he
  have hr : Ready s := ⟨⟨hb, hn⟩, hp⟩
  rw [readByte, List.append_assoc, List.append_assoc] at hts
  refine ⟨readByteTrace_length _ ack v, ?_⟩
  refine reaches_trans (reaches_fsm hr hts) ?_
  refine reaches_trans (reaches_pinLines (ks := [.pullup .sda]) (hr.of_eq rfl rfl rfl rfl) rfl rfl) ?_
  refine reaches_trans (reaches_line ⟨hb, hn⟩ rfl rfl) ?_
  refine reaches_readBits (is := bitsDown) (v := v) (hr.of_eq rfl rfl rfl rfl) rfl rfl hd he fun f w c r i => ?_
  refine reaches_of_eq (reaches_acknackPhase (hr.of_eq rfl rfl rfl rfl) rfl rfl) ?_
  rw [sampled_bitsDown]
  · exact eq_of_trace rfl (by simp [pinActions, readByteTrace, bitsOf_eq_map])
  · rfl

end Sys2Proof.Proofs
end

section
/-! The legality table and acceptance (R140 to R143): every command is one call of `issue` whose check is its row of
R142, and what its rule makes of the accepted state. -/

namespace Sys2Proof.Proofs

open Sys2Proof.Machine Sys2Proof.Safety

/-! ### The legality table (R142) -/

/-- The check of a command's row. -/
def refuses (s : State) : Instr → Bool
  | .configure => s.refusesConfigure
  | .init => s.refusesInit
  | .release => false
  | .write _ n => s.refusesTransfer n
  | .read _ n => s.refusesTransfer n
  | .crc8 n => s.refusesCrc8 n
  | .encode n => s.refusesEncode n
  | .decode n => s.refusesDecode n
  | .dcr _ n => s.refusesDcr n

/-- What a command does from the accepted state (R143 to R182). -/
def ruleOf : Instr → State → Out
  | .configure => runConfigure
  | .init => fun s => s.begin initTasks
  | .release => fun s => s.begin (releaseTasks s.st.configured)
  | .write _ _ => fun s => s.begin (writeTasks s.work.opn)
  | .read _ _ => fun s => s.clearRxCount.begin (readTasks s.work.opn)
  | .crc8 _ => runCrc8
  | .encode _ => runEncode
  | .decode _ => fun s => s.decodeAndFinish s.work.opn.n s.work.opn.init
  | .dcr _ _ => fun s => s.dcrPrepare.begin (dcrTasks s.work.opn)

/-- The accepted state of a command (R140, R141). -/
def acceptedBy (i : Instr) (s : State) : State := s.accepted (wordOperands i).1 (wordOperands i).2

theorem exec_eq_issue_ruleOf (i : Instr) (s : State) :
    exec i s = issue (refuses s i) (wordOperands i).1 (wordOperands i).2 (ruleOf i) s := by
  cases i <;> rfl

theorem refuses_eq_false {i : Instr} {s : State} : refuses s i = false ↔ ¬ refusedByTable s i := by
  cases i with
  | configure => simp [refuses, refusedByTable, State.refusesConfigure, and_assoc]
  | init => simp [refuses, refusedByTable, State.refusesInit]
  | release => simp [refuses, refusedByTable]
  | write a n | read a n => exact refusesTransfer_eq_false.trans (by simp [refusedByTable])
  | crc8 n => exact refusesCrc8_eq_false.trans (by simp [refusedByTable])
  | encode n => exact refusesEncode_eq_false.trans (by simp [refusedByTable, encodedLen])
  | decode n => exact refusesDecode_eq_false.trans (by simp [refusedByTable, rawLen])
  | dcr a n =>
    exact (refusesDcr_eq_false.trans (and_congr_right' refusesDecode_eq_false)).trans (by simp [refusedByTable, rawLen])

theorem refuses_iff {i : Instr} {s : State} : refuses s i = true ↔ refusedByTable s i := by
  rw [← not_iff_not, Bool.not_eq_true, refuses_eq_false]

theorem exec_refused {i : Instr} {s : State} (hb : s.st.busy = false) (h : refusedByTable s i) :
    exec i s = .next s.turnedAway := by
  rw [exec_eq_issue_ruleOf, refuses_iff.2 h, issue_refuses hb]

theorem exec_accepted {i : Instr} {s : State} (hb : s.st.busy = false) (h : ¬ refusedByTable s i) :
    exec i s = ruleOf i (acceptedBy i s) := by
  rw [exec_eq_issue_ruleOf, refuses_eq_false.2 h, issue_accepts hb]
  rfl

/-- A command that answers a next state was refused by its row, or is what its rule makes of the accepted state. -/
theorem exec_table_cases {i : Instr} {s t : State} (h : exec i s = .next t) :
    s.st.busy = false ∧
    (refusedByTable s i ∧ t = s.turnedAway ∨ ¬ refusedByTable s i ∧ ruleOf i (acceptedBy i s) = .next t) := by
  rw [exec_eq_issue_ruleOf] at h
  obtain ⟨hb, ⟨hr, ht⟩ | ⟨hr, ht⟩⟩ := issue_cases h
  · exact ⟨hb, .inl ⟨refuses_iff.1 hr, ht⟩⟩
  · exact ⟨hb, .inr ⟨refuses_eq_false.1 hr, ht⟩⟩

/-- A refused command finds the position at "no command" already and so writes only STATUS's error fields. -/
theorem turnedAway_of_idle {s : State} (hp : PositionInv s) (hb : s.st.busy = false) :
    s.turnedAway = { s with
      st := { s.st with errCode := .commandError, errPhase := .none, errDir := .write, stopFail := false } } := by
  obtain ⟨hts, hh, hf, hbiti, hw⟩ := hp.2 hb
  have hst : s.turnedAway.st =
      { s.st with errCode := .commandError, errPhase := .none, errDir := .write, stopFail := false } := by
    simp [State.turnedAway, finishDir, hf, hw, hb]
  have hwork : s.turnedAway.work = s.work := by
    simp [State.turnedAway, ← hts, ← hh, ← hbiti]
  calc s.turnedAway = { s with st := s.turnedAway.st, work := s.turnedAway.work } := rfl
    _ = _ := by rw [hst, hwork]

/-! ### What the rules do -/

/-- CONFIGURE latches, or rejects a degenerate configuration (R143). -/
theorem runConfigure_cases {u t : State} (h : runConfigure u = .next t) :
    (u.reg.degenerate = true ∧ t = (u.setConfigured false).finish .configurationError .none .write) ∨
    (u.reg.degenerate = false ∧ t = (u.latch.setConfigured true).finish .none .none .write) := by
  unfold runConfigure at h
  split_ifs at h with hd <;> cases h
  · exact .inl ⟨hd, rfl⟩
  · exact .inr ⟨by simpa using hd, rfl⟩

/-- CRC8 writes RESULT (R172). -/
theorem runCrc8_cases {u t : State} (h : runCrc8 u = .next t) :
    ∃ v, t = (u.setResult v).finish .none .none .write := by
  unfold runCrc8 at h
  split at h <;> cases h
  exact ⟨_, rfl⟩

/-- ENCODE writes RESULT and 2 + 3n bytes of TXBUF (R175). -/
theorem runEncode_cases {u t : State} (h : runEncode u = .next t) :
    ∃ bs v, bs.length = 2 + 3 * u.work.opn.n.toNat ∧ t = ((u.putTx bs).setResult v).finish .none .none .write := by
  unfold runEncode at h
  obtain ⟨ws, hr, ha⟩ | ⟨j, -, ha⟩ := u.wordArgs_cases u.work.opn.n.toNat <;> rw [ha] at h <;> cases h
  exact ⟨_, _, by rw [encodeCommand_length, Memory.readFrom_length hr], rfl⟩

/-- No rule ends with COMMAND_ERROR: that is the legality check's alone (R142). -/
theorem ruleOf_errCode {i : Instr} {u t : State} (hu : u.st.errCode = .none) (h : ruleOf i u = .next t) :
    t.st.errCode ≠ .commandError := by
  have hbegun : u.st.errCode ≠ .commandError := by simp [hu]
  cases i with
  | configure => obtain ⟨-, rfl⟩ | ⟨-, rfl⟩ := runConfigure_cases h <;> nofun
  | crc8 n => obtain ⟨v, rfl⟩ := runCrc8_cases h; nofun
  | encode n => obtain ⟨bs, v, -, rfl⟩ := runEncode_cases h; nofun
  | decode n => obtain ⟨raw, -, ⟨-, rfl⟩ | ⟨ws, -, -, rfl⟩⟩ := State.decodeAndFinish_cases h <;> nofun
  | init | release | write a n | read a n | dcr a n => cases h; exact hbegun

/-- Settles O25: the check of each command is its row of the table, and no rule answers COMMAND_ERROR. -/
theorem legalityTableDecidesRefusal : Obligations.LegalityTableDecidesRefusal := by
  refine fun i s hp hb => ⟨fun hr => ?_, fun hr t ht => ?_⟩
  · rw [exec_refused hb hr, turnedAway_of_idle hp hb]
  · rw [exec_accepted hb hr] at ht
    exact ruleOf_errCode rfl ht

/-- Settles O26: these five commands begin at the first of their lines, from the accepted state but for RX_COUNT and
DCR's command bytes. -/
theorem acceptanceSamplesTheOperands : Obligations.AcceptanceSamplesTheOperands := by
  intro i s hb hr hi
  rw [exec_accepted hb hr]
  obtain rfl | rfl | ⟨a, n, rfl⟩ | ⟨a, n, rfl⟩ | ⟨a, n, rfl⟩ := hi <;> refine ⟨_, rfl, rfl, rfl, ?_, rfl⟩
  · exact IsCommandLines.endsProperly (.inl rfl)
  · exact IsCommandLines.endsProperly (.inr (.inl ⟨_, rfl⟩))
  · exact IsCommandLines.endsProperly (.inr (.inr (.inl ⟨_, rfl⟩)))
  · exact IsCommandLines.endsProperly (.inr (.inr (.inr (.inl ⟨_, rfl⟩))))
  · exact IsCommandLines.endsProperly (.inr (.inr (.inr (.inr ⟨_, rfl⟩))))

/-- Settles O8: a write of CMD issues the word, and the word decodes to the command. -/
theorem stepRunsTheDecodedCommand : Obligations.StepRunsTheDecodedCommand := by
  intro s w i hb ho hd
  have hissue : issueWord w s.nextStmt = exec i s.nextStmt := by simp [issueWord, decode?, hd, Except.toOption]
  simp [step, ho, hb, runHostOp, regWrite, hissue]

/-! ### CONFIGURE (R143) -/

/-- CONFIGURE is accepted when INITIALIZED = 0 and both lines are NEUTRAL (R142). -/
theorem exec_configure_accepted {s : State} (hb : s.st.busy = false) (hi : s.st.initialized = false)
    (hc : s.st.scl = .neutral) (hd : s.st.sda = .neutral) : exec .configure s = runConfigure (s.accepted 0 0) :=
  exec_accepted hb (by simp [refusedByTable, hi, hc, hd])

/-- The half period is 0 exactly for the periods 0 and 1. -/
theorem degenerate_iff {r : Regs} : r.degenerate = true ↔ r.cfgPeriod.toNat < 2 ∨ r.cfgSclPin = r.cfgSdaPin := by
  simp only [Regs.degenerate, Bool.or_eq_true, decide_eq_true_eq]
  exact or_congr_left (by omega)

/-- Settles O27. -/
theorem configureLatchesTheConfiguration : Obligations.ConfigureLatchesTheConfiguration := by
  intro s hb hi hc hd hp hpins
  have hdeg : (s.accepted 0 0).reg.degenerate = false :=
    Bool.eq_false_iff.2 (mt degenerate_iff.1 (not_or.2 ⟨not_lt.2 hp, hpins⟩))
  have hst : doneStatus s.st .neutral .neutral = doneStatus s.st s.st.scl s.st.sda := by rw [hc, hd]
  rw [exec_configure_accepted hb hi hc hd, runConfigure, hdeg, hst]
  rfl

/-- Settles O28. -/
theorem configureRejectsADegenerateConfiguration : Obligations.ConfigureRejectsADegenerateConfiguration := by
  intro s hb hi hc hd hdeg
  have hdeg : (s.accepted 0 0).reg.degenerate = true := degenerate_iff.2 hdeg
  have hst (e ph d) : failedStatus s.st e ph d .neutral .neutral = failedStatus s.st e ph d s.st.scl s.st.sda := by
    rw [hc, hd]
  rw [exec_configure_accepted hb hi hc hd, runConfigure, hdeg, hst]
  rfl

end Sys2Proof.Proofs
end

section
/-! What commands and lines of the pseudocode leave alone, and the lines of an unconfigured block (R144). -/

namespace Sys2Proof.Proofs

open Sys2Proof.Machine Sys2Proof.Safety

/-! ### Lines -/

/-- Beyond `runTask_writes` and `runTask_stores`: a line leaves CONFIGURED and the peers alone, RX_COUNT but for
the store of a byte, and INITIALIZED but for the ends of INIT and RELEASE. -/
theorem runTask_marks {k : Task} {s t : State} (h : runTask k s = .next t) :
    t.st.configured = s.st.configured ∧ t.peers = s.peers ∧
    ((∀ i, k ≠ .storeByte i) → t.reg.rxCount = s.reg.rxCount) ∧
    (k ≠ .initDone → k ≠ .releaseDone → t.st.initialized = s.st.initialized) := by
  obtain ⟨e, b, env, fresh, as, rfl, -⟩ | h := runTask_cases h
  · obtain ⟨sf, ts, hd, hr⟩ := State.raise_frame _ e
    rw [hr]
    exact ⟨rfl, rfl, fun _ => rfl, fun _ _ => rfl⟩
  cases k with
  | pullup l => obtain ⟨-, rfl⟩ := h; simp
  | low l => obtain ⟨-, rfl⟩ := h; simp
  | reset l => cases h; simp [State.pinReset]
  | poll => obtain ⟨-, env, fresh, ⟨-, rfl⟩ | ⟨-, -, rfl⟩⟩ := h <;> exact ⟨rfl, rfl, fun _ => rfl, fun _ _ => rfl⟩
  | sampleAck => obtain ⟨-, a, env, fresh, -, rfl⟩ := h; exact ⟨rfl, rfl, fun _ => rfl, fun _ _ => rfl⟩
  | sampleBit i => obtain ⟨-, d, env, fresh, -, rfl⟩ := h; exact ⟨rfl, rfl, fun _ => rfl, fun _ _ => rfl⟩
  | checkAck => obtain ⟨-, rfl⟩ := h; exact ⟨rfl, rfl, fun _ => rfl, fun _ _ => rfl⟩
  | writeData j n => obtain ⟨-, rfl⟩ | ⟨-, b, -, rfl⟩ := h <;> exact ⟨rfl, rfl, fun _ => rfl, fun _ _ => rfl⟩
  | readData i n => obtain ⟨-, rfl⟩ | ⟨-, rfl⟩ := h <;> exact ⟨rfl, rfl, fun _ => rfl, fun _ _ => rfl⟩
  | storeByte i => cases h; exact ⟨rfl, rfl, fun hi => absurd rfl (hi i), fun _ _ => rfl⟩
  | initDone => obtain ⟨-, rfl⟩ := h; exact ⟨rfl, rfl, fun _ => rfl, fun hi => absurd rfl hi⟩
  | releaseDone => cases h; exact ⟨rfl, rfl, fun _ => rfl, fun _ hr => absurd rfl hr⟩
  | decodeRaw => obtain ⟨raw, -, ⟨-, rfl⟩ | ⟨ws, -, -, rfl⟩⟩ := h <;> exact ⟨rfl, rfl, fun _ => rfl, fun _ _ => rfl⟩
  | _ => cases h; exact ⟨rfl, rfl, fun _ => rfl, fun _ _ => rfl⟩

/-- Writing n elements from index 0 on touches no element from n on. -/
theorem get?_writeFrom_beyond {w n j : Nat} {vs : List (BitVec w)} (m : Memory w) (hl : vs.length = n) (hj : n ≤ j) :
    (m.writeFrom 0 vs).get? j = m.get? j := by
  rw [Memory.get?_writeFrom, if_neg (by omega)]

/-- Settles O47: `runTask_writes`, `runTask_stores` and `runTask_marks` of the line that runs. -/
theorem sequencerFrame : Obligations.SequencerFrame := by
  intro s t k ts hts h
  rw [seqStep_cons hts] at h
  obtain ⟨hcur, hreg, htx, hhost, -, -⟩ := runTask_writes h
  obtain ⟨hplat, hopn, hrx, hwb⟩ := runTask_stores h
  obtain ⟨hconf, hpeers, hcount, hinit⟩ := runTask_marks h
  refine ⟨⟨hcur, htx, hreg, hconf, hopn, hhost, hpeers, hplat⟩, fun hk => ⟨?_, hcount hk⟩, ?_, fun hk => ?_, ?_, hinit⟩
  · exact hrx.resolve_right fun ⟨i, hi, _⟩ => hk i hi
  · rintro i rfl
    cases h
    exact ⟨rfl, Memory.get?_set_self .., fun j hj => by simp [State.storeByte, Memory.get?_set, hj]⟩
  · exact hwb.resolve_right fun ⟨ws, hd, _⟩ => hk hd
  · rintro rfl j hj
    obtain hwb | ⟨ws, -, hl, hwb⟩ := hwb <;> rw [hwb]
    · rfl
    · exact get?_writeFrom_beyond _ hl hj

/-! ### Commands -/

/-- What every command leaves alone at its acceptance: of STATUS both lines and INITIALIZED, of the registers and the
working state all but what is listed, and all the rest but the latched configuration, TXBUF and WORDBUF. -/
def LeavesRest (s t : State) : Prop :=
  t = { s with
    st := { t.st with scl := s.st.scl, sda := s.st.sda, initialized := s.st.initialized }
    reg := { s.reg with
      halfPeriod := t.reg.halfPeriod, stretchRetries := t.reg.stretchRetries, result := t.reg.result,
      rxCount := t.reg.rxCount }
    cur := t.cur
    work := { t.work with
      shift := s.work.shift, retryLeft := s.work.retryLeft, byteIdx := s.work.byteIdx, ackBit := s.work.ackBit }
    txbuf := t.txbuf
    wordbuf := t.wordbuf }

theorem ruleOf_leavesRest {i : Instr} {s t : State} (h : ruleOf i (acceptedBy i s) = .next t) : LeavesRest s t := by
  cases i with
  | configure => obtain ⟨-, rfl⟩ | ⟨-, rfl⟩ := runConfigure_cases h <;> rfl
  | crc8 n => obtain ⟨v, rfl⟩ := runCrc8_cases h; rfl
  | encode n => obtain ⟨bs, v, -, rfl⟩ := runEncode_cases h; rfl
  | decode n => obtain ⟨raw, -, ⟨-, rfl⟩ | ⟨ws, -, -, rfl⟩⟩ := State.decodeAndFinish_cases h <;> rfl
  | init | release | write a n | read a n | dcr a n => cases h; rfl

theorem exec_leavesRest {i : Instr} {s t : State} (h : exec i s = .next t) : LeavesRest s t := by
  obtain ⟨-, ⟨-, rfl⟩ | ⟨-, h⟩⟩ := exec_table_cases h
  · rfl
  · exact ruleOf_leavesRest h

/-- Settles O46: a refused command writes STATUS alone, and each rule's answer shows what else it writes. -/
theorem commandFrame : Obligations.CommandFrame := by
  intro i s t h
  obtain ⟨hbus, hwork, hreg⟩ :
      (t.trace = s.trace ∧ t.st.scl = s.st.scl ∧ t.st.sda = s.st.sda ∧ t.rxbuf = s.rxbuf ∧ t.host = s.host ∧
        t.env = s.env ∧ t.peers = s.peers ∧ t.plat = s.plat ∧ t.fresh = s.fresh ∧
        t.st.initialized = s.st.initialized) ∧
      (t.work.shift = s.work.shift ∧ t.work.retryLeft = s.work.retryLeft ∧ t.work.byteIdx = s.work.byteIdx ∧
        t.work.ackBit = s.work.ackBit) ∧
      t.reg = { s.reg with
        halfPeriod := t.reg.halfPeriod, stretchRetries := t.reg.stretchRetries, result := t.reg.result,
        rxCount := t.reg.rxCount } := by
    rw [exec_leavesRest h]
    exact ⟨⟨rfl, rfl, rfl, rfl, rfl, rfl, rfl, rfl, rfl, rfl⟩, ⟨rfl, rfl, rfl, rfl⟩, rfl⟩
  refine ⟨hbus, hwork, hreg, ?_⟩
  obtain ⟨-, ⟨-, rfl⟩ | ⟨-, h⟩⟩ := exec_table_cases h
  · exact ⟨fun _ => ⟨rfl, rfl, rfl, rfl⟩, fun _ _ => rfl, fun _ _ => rfl, fun _ _ => rfl, fun _ _ _ _ => rfl,
      fun _ _ _ _ _ => rfl, fun _ => rfl, fun _ _ _ _ => rfl⟩
  cases i with
  | configure =>
    obtain ⟨-, rfl⟩ | ⟨-, rfl⟩ := runConfigure_cases h <;>
      exact ⟨fun hi => absurd rfl hi, fun _ _ => rfl, fun _ _ => rfl, fun _ _ => rfl, nofun, nofun, fun _ => rfl, nofun⟩
  | init | release | write a n =>
    cases h
    exact ⟨fun _ => ⟨rfl, rfl, rfl, rfl⟩, fun _ _ => rfl, fun _ _ => rfl, fun _ _ => rfl, nofun, nofun, fun _ => rfl,
      nofun⟩
  | read a n =>
    cases h
    exact ⟨fun _ => ⟨rfl, rfl, rfl, rfl⟩, fun _ _ => rfl, fun hi => absurd rfl (hi a n), fun _ _ => rfl, nofun, nofun,
      fun _ => rfl, nofun⟩
  | crc8 n =>
    obtain ⟨v, rfl⟩ := runCrc8_cases h
    exact ⟨fun _ => ⟨rfl, rfl, rfl, rfl⟩, fun hi => absurd rfl (hi n), fun _ _ => rfl, fun _ _ => rfl, nofun, nofun,
      fun _ => rfl, nofun⟩
  | encode n =>
    obtain ⟨bs, v, hl, rfl⟩ := runEncode_cases h
    refine ⟨fun _ => ⟨rfl, rfl, rfl, rfl⟩, fun _ hi => absurd rfl (hi n), fun _ _ => rfl, fun hi => absurd rfl (hi n),
      ?_, nofun, fun _ => rfl, nofun⟩
    rintro _ ⟨⟩ k hk
    exact get?_writeFrom_beyond _ hl hk
  | decode n =>
    obtain ⟨raw, -, ⟨-, rfl⟩ | ⟨ws, -, hl, rfl⟩⟩ := State.decodeAndFinish_cases h <;>
      refine ⟨fun _ => ⟨rfl, rfl, rfl, rfl⟩, fun _ _ => rfl, fun _ _ => rfl, fun _ _ => rfl, nofun, nofun,
        fun hi => absurd rfl (hi n), ?_⟩ <;>
      rintro _ ⟨⟩ k hk
    · rfl
    · exact get?_writeFrom_beyond _ hl hk
  | dcr a n =>
    cases h
    refine ⟨fun _ => ⟨rfl, rfl, rfl, rfl⟩, fun _ _ => rfl, fun _ hi => absurd rfl (hi a n),
      fun _ hi => absurd rfl (hi a n), nofun, ?_, fun _ => rfl, nofun⟩
    rintro _ _ ⟨⟩ k hk
    exact get?_writeFrom_beyond (n := 2) _ rfl hk

/-! ### The lines of an unconfigured block (R144) -/

/-- A line that raises needs a configuration. -/
theorem needsConfig_of_raises {k : Task} {s t : State} (h : raises k s t) : needsConfig k = true := by
  obtain ⟨e, b, env, fresh, as, -, ⟨rfl, -⟩ | ⟨-, -, -, -, -, ⟨rfl, -⟩ | ⟨-, ⟨l, hk, -⟩ | ⟨hk, -⟩⟩⟩⟩ := h
  · rfl
  · rfl
  · obtain rfl | rfl := hk <;> rfl
  · obtain rfl | ⟨i, rfl⟩ := hk <;> rfl

/-- A line that needs no configuration puts no line before those left, and sets no line. -/
theorem Expands.eq_nil_of_not_needsConfig {k : Task} {pre : List Task} (h : Expands k pre)
    (hk : needsConfig k = false) : pre = [] := by
  cases h with
  | moveOn => rfl
  | wait | retry | write j n b | read i n ack => cases hk

theorem not_setsLine_of_not_needsConfig {k : Task} (hk : needsConfig k = false) : setsLine k = false := by
  cases k with
  | pullup l | low l | reset l => cases hk
  | _ => rfl

/-- A finished command has nothing left to run. -/
theorem finish_configuredInv {s : State} (e : ErrCode) (ph : Phase) (d : Dir)
    (h : s.st.configured = false → s.st.initialized = false ∧ s.st.scl = .neutral ∧ s.st.sda = .neutral) :
    ConfiguredInv (s.finish e ph d) := fun hc =>
  have ⟨hi, hscl, hsda⟩ := h hc
  ⟨hi, hscl, hsda, rfl⟩

theorem runTask_configuredInv {k : Task} {ts : List Task} {s t : State} (hts : s.work.tasks = k :: ts)
    (h : runTask k (s.setTasks ts) = .next t) (hs : ConfiguredInv s) : ConfiguredInv t := by
  intro hc
  obtain ⟨hconf, -⟩ := runTask_marks h
  obtain ⟨hi, hscl, hsda, hn⟩ := hs (hconf.symm.trans hc)
  obtain ⟨hk, hn⟩ : needsConfig k = false ∧ ts.all (fun t => !needsConfig t) = true := by simpa [hts] using hn
  obtain hr | hr := runTask_cases h
  · simp [needsConfig_of_raises hr] at hk
  cases he : endsCommand k with
  | false =>
    obtain ⟨pre, hcont⟩ := continues_of_runs he hr
    have hline (l) : t.lineOf l = s.lineOf l :=
      (hcont.line l).trans (lineBy_of_not_setsLine (not_setsLine_of_not_needsConfig hk) l _)
    refine ⟨hcont.initialized.trans hi, (hline .scl).trans hscl, (hline .sda).trans hsda, ?_⟩
    rw [hcont.tasks, hcont.expands.eq_nil_of_not_needsConfig hk]
    exact hn
  | true =>
    cases k with
    | initDone => cases hk
    | releaseDone => cases hr; exact ⟨rfl, hscl, hsda, rfl⟩
    | finish e ph d => cases hr; exact ⟨hi, hscl, hsda, rfl⟩
    | decodeRaw => obtain ⟨raw, -, ⟨-, rfl⟩ | ⟨ws, -, -, rfl⟩⟩ := hr <;> exact ⟨hi, hscl, hsda, rfl⟩
    | _ => cases he

theorem exec_configuredInv {i : Instr} {s t : State} (h : exec i s = .next t) (hs : ConfiguredInv s) :
    ConfiguredInv t := by
  have hlines (hc : s.st.configured = false) : s.st.initialized = false ∧ s.st.scl = .neutral ∧ s.st.sda = .neutral :=
    have ⟨hi, hscl, hsda, _⟩ := hs hc
    ⟨hi, hscl, hsda⟩
  obtain ⟨-, ⟨-, rfl⟩ | ⟨hr, h⟩⟩ := exec_table_cases h
  · exact finish_configuredInv _ _ _ hlines
  cases i with
  | configure =>
    have hneutral : s.st.initialized = false ∧ s.st.scl = .neutral ∧ s.st.sda = .neutral := by
      simpa [refusedByTable] using hr
    obtain ⟨-, rfl⟩ | ⟨-, rfl⟩ := runConfigure_cases h <;> exact finish_configuredInv _ _ _ fun _ => hneutral
  | crc8 n => obtain ⟨v, rfl⟩ := runCrc8_cases h; exact finish_configuredInv _ _ _ hlines
  | encode n => obtain ⟨bs, v, -, rfl⟩ := runEncode_cases h; exact finish_configuredInv _ _ _ hlines
  | decode n =>
    obtain ⟨raw, -, ⟨-, rfl⟩ | ⟨ws, -, -, rfl⟩⟩ := State.decodeAndFinish_cases h <;>
      exact finish_configuredInv _ _ _ hlines
  | init => cases h; exact fun hc => absurd hc hr
  | release =>
    cases h
    intro (hc : s.st.configured = false)
    obtain ⟨hi, hscl, hsda⟩ := hlines hc
    refine ⟨hi, hscl, hsda, ?_⟩
    show (releaseTasks s.st.configured).all (fun t => !needsConfig t) = true
    rw [hc]
    rfl
  | write a n | read a n | dcr a n => cases h; exact fun hc => absurd (.inl (hlines hc).1) hr

theorem runHostOp_configuredInv {o : HostOp} {s t : State} (h : runHostOp o s = .next t) (hs : ConfiguredInv s) :
    ConfiguredInv t := by
  obtain ⟨w, -, hw⟩ | ⟨-, rfl⟩ | ⟨reg, tx, rx, wb, host, peers, fresh, rfl⟩ := runHostOp_cases h
  · obtain ⟨-, rfl⟩ | ⟨i, hi⟩ := issueWord_cases hw
    · exact fun hc => have ⟨hi, hscl, hsda, _⟩ := hs hc; ⟨hi, hscl, hsda, rfl⟩
    · exact exec_configuredInv hi hs
  · exact fun _ => ⟨rfl, rfl, rfl, rfl⟩
  · exact hs

/-- Settles O52: the lines of an unconfigured block touch no pin, the legality check turns away the commands that would,
and CONFIGURE, the only one to clear CONFIGURED, finds both lines NEUTRAL. -/
theorem stepKeepsUnconfiguredLinesNeutral : Obligations.StepKeepsUnconfiguredLinesNeutral := fun _ _ hs h =>
  step_keeps (fun _ _ _ => id) (fun _ _ _ _ _ hts => runTask_configuredInv hts)
    (fun _ _ _ => runHostOp_configuredInv) h hs

end Sys2Proof.Proofs
end

section
/-! Runs of INIT and RELEASE (R145, R147), the head of a read's byte loop (R152, R154), and the registers a running
command does not see (R141, R241). -/

namespace Sys2Proof.Proofs

open Sys2Proof.Machine Sys2Proof.Safety

/-! ### Lines of INIT and RELEASE -/

section
variable {s : State} {ts : List Task}

theorem reaches_onErr {h : Handler} (hr : Running s) (hts : s.work.tasks = .onErr h :: ts) :
    Reaches s { s with work := { s.work with tasks := ts, handler := h } } :=
  reaches_line hr hts rfl

/-- A pull-up of an accepted pin (R101). -/
theorem reaches_pullup {l : Line} (hr : Running s) (hts : s.work.tasks = .pullup l :: ts) (hp : s.pinOk l = true) :
    Reaches s (((s.setTasks ts).setLine l .released).act (.pu l)) := by
  have hp' : (s.setTasks ts).pinOk l = true := by cases l <;> exact hp
  exact reaches_line hr hts (by rw [runTask, pinPullup_of_pinOk hp']; rfl)

/-- Under INIT's clause a refused pin is reported with no cleanup STOP (R145). -/
theorem reaches_pullup_refused {l : Line} (hr : Running s) (hts : s.work.tasks = .pullup l :: ts)
    (hp : s.pinOk l = false) (hh : s.work.handler = .report) : Reaches s (s.finish .invalidPin .none .write) := by
  have hp' : (s.setTasks ts).pinOk l = false := by cases l <;> exact hp
  have hraise : (s.setTasks ts).raise .invalidPin = s.goTo [.finish .invalidPin .none .write] .none := by
    simp only [State.raise, State.setTasks_work, hh]
    rfl
  have hline : runTask (.pullup l) (s.setTasks ts) = .next (s.goTo [.finish .invalidPin .none .write] .none) := by
    simp [runTask, State.pinPullup, hp', orRaise, hraise]
  exact reaches_trans (reaches_line hr hts hline) (reaches_line ⟨hr.busy, hr.hostDone⟩ rfl rfl)

/-- INIT's end when nobody else holds a pin (R145, R218). -/
theorem reaches_initDone (hr : Running s) (hts : s.work.tasks = .initDone :: ts)
    (hp : ∀ p ∈ s.peers, ¬ commonPin p.scl p.sda s.cur.sclPin s.cur.sdaPin) :
    Reaches s ((s.setInitialized true).finish .none .none .write) := by
  have hshares : (s.setTasks ts).peers.any (s.setTasks ts).sharesWith = false :=
    List.any_eq_false.2 fun p hmem => mt State.sharesWith_iff.1 (hp p hmem)
  refine reaches_line hr hts ?_
  rw [runTask, runInitDone, hshares]
  rfl

end

theorem exec_init {s : State} (hb : s.st.busy = false) (hc : s.st.configured = true) :
    exec .init s = .next ((s.accepted 0 0).goTo initTasks .none) :=
  exec_accepted hb (by simp [refusedByTable, hc])

theorem exec_release {s : State} (hb : s.st.busy = false) :
    exec .release s = .next ((s.accepted 0 0).goTo (releaseTasks s.st.configured) .none) :=
  exec_accepted hb id

/-- INIT stands at its two pull-ups (R145). -/
def initPulls (s : State) : State :=
  ((s.accepted 0 0).goTo [.pullup .scl, .pullup .sda, .initDone] .report).setFsm .pinSetup

theorem initPulls_running {s : State} (hn : HostDone s) : Running (initPulls s) := ⟨rfl, hn⟩

theorem reaches_initPulls {s : State} (hn : HostDone s) :
    Reaches ((s.accepted 0 0).goTo initTasks .none) (initPulls s) :=
  reaches_trans (reaches_onErr ⟨rfl, hn⟩ rfl) (reaches_line ⟨rfl, hn⟩ rfl rfl)

/-- Settles O29: with both pins accepted the pull-ups succeed, and INIT's end finds no shared pin. -/
theorem initReleasesBothLines : Obligations.InitReleasesBothLines := by
  intro s hb hn hc hp hpeers
  refine ⟨_, exec_init hb hc, reaches_trans (reaches_initPulls hn) ?_⟩
  refine reaches_trans (reaches_pinLines (ks := [.pullup .scl, .pullup .sda]) ⟨initPulls_running hn, hp⟩ rfl rfl) ?_
  exact reaches_initDone ⟨rfl, hn⟩ rfl hpeers

/-- Settles O30: the first refused pin raises InvalidPin, which INIT's clause reports with no STOP. -/
theorem initReportsAnInvalidPin : Obligations.InitReportsAnInvalidPin := by
  refine fun s hb hn hc => ⟨fun hscl => ⟨_, exec_init hb hc, reaches_trans (reaches_initPulls hn) ?_⟩,
    fun hscl hsda => ⟨_, exec_init hb hc, reaches_trans (reaches_initPulls hn) ?_⟩⟩
  · exact reaches_pullup_refused (initPulls_running hn) rfl hscl rfl
  · refine reaches_trans (reaches_pullup (initPulls_running hn) rfl hscl) ?_
    exact reaches_pullup_refused ⟨rfl, hn⟩ rfl hsda rfl

/-- Settles O32: the lines of RELEASE one after the other; `pin_reset` looks at no pin. -/
theorem releaseNeutralisesBothLines : Obligations.ReleaseNeutralisesBothLines := by
  refine fun s hb hn => ⟨_, exec_release hb, fun hc => ?_, fun hc => ?_⟩ <;> rw [hc]
  · refine reaches_trans (reaches_line ⟨rfl, hn⟩ rfl rfl) ?_
    refine reaches_trans (reaches_line ⟨rfl, hn⟩ rfl rfl) ?_
    refine reaches_trans (reaches_line ⟨rfl, hn⟩ rfl rfl) ?_
    refine reaches_of_eq (reaches_line ⟨rfl, hn⟩ rfl rfl) (eq_of_trace rfl ?_)
    simp [State.releaseDone, State.pinReset]
  · exact reaches_line ⟨rfl, hn⟩ rfl rfl

/-! ### The head of a read's byte loop -/

/-- Settles O36. -/
theorem onlyTheLastByteOfAReadIsNacked : Obligations.OnlyTheLastByteOfAReadIsNacked := by
  intro s i n ts hts hi
  have hlast : decide (i + 1 < n) = false ↔ i = n - 1 := by
    rw [decide_eq_false_iff_not]
    omega
  refine ⟨decide (i + 1 < n), _, (seqStep_cons hts).trans (if_pos hi), hlast, rfl, rfl, ?_⟩
  by_cases h : i = n - 1
  · rw [hlast.2 h, if_pos h]
    rfl
  · rw [Bool.of_not_eq_false (mt hlast.1 h), if_neg h]
    rfl

/-! ### The registers a running command does not see -/

/-- An answer with f done to its next state. -/
def onNext (f : State → State) : Out → Out
  | .next t => .next (f t)
  | .fault e => .fault e
  | .refused r => .refused r

/-- The state with other values in its registers. -/
def withRegs (m : Regs → Regs) (s : State) : State := { s with reg := m s.reg }

section
variable (m : Regs → Regs) (s : State)

theorem level_withRegs (l : Line) :
    (withRegs m s).level l = ((s.level l).1, withRegs m (s.level l).2) := by
  have hdraw : (withRegs m s).draw l = ((s.draw l).1, withRegs m (s.draw l).2) := by
    cases l <;> simp only [State.draw, withRegs] <;> split <;> rfl
  by_cases h : s.lineOf l = .drivenLow
  · rw [State.level_driven h, State.level_driven (by cases l <;> exact h)]
  · rw [State.level_drawn h, State.level_drawn (by cases l <;> exact h), hdraw]

theorem pinOk_withRegs (l : Line) : (withRegs m s).pinOk l = s.pinOk l := by
  cases l <;> rfl

theorem raise_withRegs (e : ErrCode) : (withRegs m s).raise e = withRegs m (s.raise e) := by
  simp only [State.raise, withRegs]
  cases s.work.handler <;> rfl

theorem pinRead_withRegs (l : Line) :
    (withRegs m s).pinRead l = (s.pinRead l).map (Prod.map id (withRegs m)) := by
  simp only [State.pinRead, pinOk_withRegs, level_withRegs]
  cases s.pinOk l <;> rfl

/-- A line of the pseudocode reads no register, and writes RX_COUNT at most. -/
theorem runTask_withRegs (hm : ∀ r v, m { r with rxCount := v } = { m r with rxCount := v }) (k : Task) :
    runTask k (withRegs m s) = onNext (withRegs m) (runTask k s) := by
  have hraise (u : State) (e) : Host.Outcome.next ((withRegs m u).raise e) =
      onNext (withRegs m) (.next (u.raise e)) := congrArg _ (raise_withRegs m u e)
  cases k with
  | pullup l | low l =>
    simp only [runTask, State.pinPullup, State.pinLow, pinOk_withRegs]
    cases s.pinOk l
    · exact hraise s _
    · cases l <;> rfl
  | reset l => cases l <;> rfl
  | poll =>
    simp only [runTask, runPoll, pinRead_withRegs]
    obtain e | ⟨_ | _, t⟩ := s.pinRead .scl
    · exact hraise (s.setStretch false) e
    · by_cases hz : t.work.retryLeft = 0
      · have hz' : (withRegs m t).work.retryLeft = 0 := hz
        simp only [Except.map, Prod.map, id, if_pos hz, if_pos hz']
        exact hraise (t.setStretch false) _
      · have hz' : (withRegs m t).work.retryLeft ≠ 0 := hz
        simp only [Except.map, Prod.map, id, if_neg hz, if_neg hz']
        rfl
    · rfl
  | sampleAck =>
    simp only [runTask, runSampleAck, pinRead_withRegs]
    obtain e | ⟨a, t⟩ := s.pinRead .sda
    · exact hraise s e
    · rfl
  | sampleBit i =>
    simp only [runTask, runSampleBit, pinRead_withRegs]
    obtain e | ⟨a, t⟩ := s.pinRead .sda
    · exact hraise s e
    · rfl
  | checkAck =>
    rw [runTask_checkAck, runTask_checkAck, raise_withRegs, onNext, apply_ite (withRegs m)]
    rfl
  | writeData j n =>
    have htx : (withRegs m s).txbuf = s.txbuf := rfl
    simp only [runTask, runWriteData, htx]
    by_cases hj : j < n
    · rw [if_pos hj, if_pos hj]
      cases s.txbuf.get? j <;> rfl
    · rw [if_neg hj, if_neg hj]
      rfl
  | readData i n => simp only [runTask, runReadData]; split <;> rfl
  | storeByte i =>
    have hstore : (withRegs m s).storeByte i = withRegs m (s.storeByte i) :=
      (congrArg (fun r => ({ s with rxbuf := s.rxbuf.set i s.work.shift, reg := r } : State)) (hm s.reg _)).symm
    exact congrArg Host.Outcome.next hstore
  | initDone =>
    have hshares : (withRegs m s).peers.any (withRegs m s).sharesWith = s.peers.any s.sharesWith := rfl
    simp only [runTask, runInitDone, hshares]
    split <;> rfl
  | decodeRaw =>
    have hraw (n) : (withRegs m s).rxBytes n = s.rxBytes n := rfl
    have hopn : (withRegs m s).work.opn = s.work.opn := rfl
    simp only [runTask, State.decodeAndFinish, hraw, hopn]
    obtain f | raw := s.rxBytes (rawLen s.work.opn.n)
    · rfl
    · cases h : decodeWords s.work.opn.init raw <;> simp only [h] <;> rfl
  | _ => rfl

theorem seqStep_withRegs (hm : ∀ r v, m { r with rxCount := v } = { m r with rxCount := v }) :
    seqStep (withRegs m s) = onNext (withRegs m) (seqStep s) := by
  cases hts : s.work.tasks with
  | nil =>
    have hts' : (withRegs m s).work.tasks = [] := hts
    simp only [seqStep, hts, hts', onNext]
  | cons k ts =>
    rw [seqStep_cons hts, seqStep_cons (s := withRegs m s) hts]
    exact runTask_withRegs m (s.setTasks ts) hm k

end

/-- Settles O45: no line reads a register, and RX_COUNT, which the store of a byte writes, is none of the six. -/
theorem hostRegistersDoNotDisturbARunningCommand : Obligations.HostRegistersDoNotDisturbARunningCommand := by
  intro s scl sda p cmd d ci other
  have hstep : seqStep (other s) = onNext other (seqStep s) := seqStep_withRegs
    (fun r => { r with
      cfgSclPin := scl, cfgSdaPin := sda, cfgPeriod := p, crcInit := ci, argCmd := cmd, argDelay := d })
    s fun _ _ => rfl
  exact ⟨fun t h => by rw [hstep, h]; rfl, fun f h => by rw [hstep, h]; rfl⟩

end Sys2Proof.Proofs
end

section
/-! Runs of whole transactions (R149 to R155), read from the end backwards: what is left of a command ends in a state u
from a position if what is left after the position's first lines does. The working values that no later line reads are
whatever they are. -/

namespace Sys2Proof.Proofs

open Sys2Proof.Machine Sys2Proof.Safety

/-! ### States later in a command -/

/-- The command ends in the state u, its working values apart. -/
def Ends (s u : State) : Prop :=
  ∃ w : Work, w.tasks = [] ∧ w.handler = .none ∧ w.biti = 0 ∧ Reaches s { u with work := w }

theorem ends_of_reaches {s t u : State} (h : Reaches s t) (h' : Ends t u) : Ends s u := by
  obtain ⟨w, ht, hh, hb, h'⟩ := h'
  exact ⟨w, ht, hh, hb, reaches_trans h h'⟩

/-- The lines ts are left, under the `on Err` clause h, with the operands o. -/
structure StandsAt (w : Work) (ts : List Task) (h : Handler) (o : Opn) : Prop where
  tasks : w.tasks = ts
  handler : w.handler = h
  opn : w.opn = o

/-- The state s later in a command: the lines are c and d, the draws ds and es are left, and tr was traced. -/
def later (s : State) (f : FsmState) (b : Bool) (w : Work) (c d : LineState) (ds es : List Bool) (tr : List Action) :
    State :=
  { s with
    st := { s.st with fsm := f, stretchWait := b, scl := c, sda := d }
    work := w
    env := { s.env with sclDraws := ds, sdaDraws := es }
    trace := s.trace ++ tr }

/-- Every state later than s that stands at the lines ts ends in u, whatever its FSM_STATE, STRETCH_WAIT and working
values. -/
def EndsFrom (s : State) (ts : List Task) (h : Handler) (c d : LineState) (ds es : List Bool) (tr : List Action)
    (u : State) : Prop :=
  ∀ f b w, StandsAt w ts h s.work.opn → Ends (later s f b w c d ds es tr) u

theorem ready_later {s : State} (hr : Ready s) (f : FsmState) (b : Bool) (w : Work) (c d : LineState)
    (ds es : List Bool) (tr : List Action) : Ready (later s f b w c d ds es tr) :=
  hr.of_eq rfl rfl rfl rfl

/-! ### Bytes to send and bytes received -/

/-- The elements of a memory from index j on are the listed ones. -/
def Holds {w : Nat} (m : Memory w) (j : Nat) (vs : List (BitVec w)) : Prop := ∀ k < vs.length, m.get? (j + k) = vs[k]?

theorem holds_of_readFrom {w : Nat} {m : Memory w} {n j : Nat} {vs : List (BitVec w)} (h : m.readFrom n j = .ok vs) :
    Holds m j vs :=
  fun k hk => Memory.readFrom_get? h k (Memory.readFrom_length h ▸ hk)

theorem holds_cons {w : Nat} {m : Memory w} {j : Nat} {v : BitVec w} {vs : List (BitVec w)} (h : Holds m j (v :: vs)) :
    m.get? j = some v ∧ Holds m (j + 1) vs := by
  refine ⟨h 0 (by simp), fun k hk => ?_⟩
  have := h (k + 1) (by simpa using hk)
  rwa [List.getElem?_cons_succ, Nat.add_comm k, ← Nat.add_assoc] at this

theorem holds_append {w : Nat} {m : Memory w} {j : Nat} {vs ws : List (BitVec w)} (hm : Holds m j (vs ++ ws)) :
    Holds m j vs ∧ Holds m (j + vs.length) ws := by
  refine ⟨fun k hk => ?_, fun k hk => ?_⟩
  · rw [hm k (by rw [List.length_append]; omega), List.getElem?_append_left hk]
  · rw [Nat.add_assoc, hm _ (by rw [List.length_append]; omega), List.getElem?_append_right (Nat.le_add_right ..),
      Nat.add_sub_cancel_left]

/-- A list written from index i on is there. -/
theorem holds_writeFrom {w : Nat} (m : Memory w) (i : Nat) (vs : List (BitVec w)) : Holds (m.writeFrom i vs) i vs := by
  intro k hk
  rw [Memory.get?_writeFrom, if_pos (by omega), Nat.add_sub_cancel_left]

theorem writeFrom_append {w : Nat} (m : Memory w) (i : Nat) (vs ws : List (BitVec w)) :
    m.writeFrom i (vs ++ ws) = (m.writeFrom i vs).writeFrom (i + vs.length) ws := by
  induction vs generalizing m i with
  | nil => rfl
  | cons v vs ih =>
    rw [List.cons_append, Memory.writeFrom, ih, Memory.writeFrom, List.length_cons, Nat.add_right_comm, Nat.add_assoc]

/-- The bytes vs are stored in RXBUF from index i on and counted (R152). -/
def stored (s : State) (i : Nat) (vs : List Byte) : State :=
  { s with
    rxbuf := s.rxbuf.writeFrom i vs
    reg := { s.reg with rxCount := BitVec.ofNat 16 (i + vs.length) } }

theorem ready_stored {s : State} (hr : Ready s) (i : Nat) (vs : List Byte) : Ready (stored s i vs) :=
  hr.of_eq rfl rfl rfl rfl

theorem stored_nil {s : State} {i : Nat} (h : s.reg.rxCount = BitVec.ofNat 16 i) : stored s i [] = s := by
  simp only [stored, Memory.writeFrom, List.length_nil, Nat.add_zero, ← h]

theorem stored_append (s : State) (i : Nat) (vs ws : List Byte) :
    stored (stored s i vs) (i + vs.length) ws = stored s i (vs ++ ws) := by
  simp only [stored, writeFrom_append, List.length_append, Nat.add_assoc]

theorem stored_cons (s : State) (i : Nat) (v : Byte) (vs : List Byte) :
    stored (stored s i [v]) (i + 1) vs = stored s i (v :: vs) :=
  stored_append s i [v] vs

/-! ### Micro-operations -/

section
variable {s u : State} {ts : List Task} {h : Handler} {c d : LineState} {ds es : List Bool} {tr : List Action}

theorem ends_via {t v : State} {f : FsmState} {b : Bool} {w : Work} (hu : EndsFrom s ts h c d ds es tr u)
    (hr : Reaches t v) (hv : v = later s f b w c d ds es tr) (hw : StandsAt w ts h s.work.opn) : Ends t u :=
  ends_of_reaches hr (hv ▸ hu f b w hw)

/-- A command at its first line, nothing traced yet. -/
theorem EndsFrom.ends {cs ss : List Bool} (hts : s.work.tasks = ts) (hcs : s.env.sclDraws = cs)
    (hss : s.env.sdaDraws = ss) (hu : EndsFrom s ts s.work.handler s.st.scl s.st.sda cs ss [] u) : Ends s u := by
  subst hts hcs hss
  exact ends_via (f := s.st.fsm) (b := s.st.stretchWait) (w := s.work) hu (reaches_refl s)
    (eq_of_trace rfl (List.append_nil _).symm) ⟨rfl, rfl, rfl⟩

theorem EndsFrom.of_trace {tr' : List Action} (hu : EndsFrom s ts h c d ds es tr' u) (htr : tr = tr') :
    EndsFrom s ts h c d ds es tr u :=
  htr ▸ hu

theorem endsFrom_finish (hr : Ready s) (e : ErrCode) (ph : Phase) (dir : Dir) :
    EndsFrom s (.finish e ph dir :: ts) h c d ds es tr { s with
      st := { s.st with
        busy := false, errCode := e, errPhase := ph, errDir := finishDir ph dir, stretchWait := false, fsm := .idle
        scl := c, sda := d }
      env := { s.env with sclDraws := ds, sdaDraws := es }
      trace := s.trace ++ tr } := fun f b w hw =>
  ⟨{ w with tasks := [], handler := .none, biti := 0 }, rfl, rfl, rfl,
    reaches_line (ready_later hr f b w c d ds es tr).toRunning hw.tasks rfl⟩

theorem endsFrom_onErr {h' : Handler} (hr : Ready s) (hu : EndsFrom s ts h' c d ds es tr u) :
    EndsFrom s (.onErr h' :: ts) h c d ds es tr u := fun f b w hw =>
  ends_via hu (reaches_onErr (ready_later hr f b w c d ds es tr).toRunning hw.tasks) rfl ⟨rfl, rfl, hw.opn⟩

theorem endsFrom_start (hr : Ready s)
    (hu : EndsFrom s ts h .drivenLow .drivenLow ds es (tr ++ startTrace s.cur.half.toNat) u) :
    EndsFrom s (start ++ ts) h c d (true :: ds) es tr u := fun f b w hw =>
  ends_via hu (reaches_start (ready_later hr f b w c d _ es tr) hw.tasks rfl)
    (eq_of_trace rfl (List.append_assoc ..)) ⟨rfl, hw.handler, hw.opn⟩

theorem endsFrom_stop (hr : Ready s)
    (hu : EndsFrom s ts h .released .released ds es (tr ++ stopTrace s.cur.half.toNat) u) :
    EndsFrom s (stop ++ ts) h c d ds es tr u := fun f b w hw =>
  ends_via hu (reaches_stop (ready_later hr f b w c d ds es tr) hw.tasks)
    (eq_of_trace rfl (List.append_assoc ..)) ⟨rfl, hw.handler, hw.opn⟩

theorem endsFrom_writeByte {b : Byte} (hr : Ready s)
    (hu : EndsFrom s ts h .drivenLow .released ds es (tr ++ writeByteTrace s.cur.half.toNat false b) u) :
    EndsFrom s (writeByte b ++ ts) h c d (List.replicate 9 true ++ ds) (false :: es) tr u := fun f b' w hw =>
  have hr' := ready_later hr f b' w c d (List.replicate 9 true ++ ds) (false :: es) tr
  have ⟨_, hbyte⟩ := writeByteSendsBitsAndSamplesAck _ b false ts ds es hr'.busy hr'.hostDone hr'.pins hw.tasks rfl rfl
  ends_via hu hbyte (eq_of_trace rfl (List.append_assoc ..)) ⟨rfl, hw.handler, hw.opn⟩

/-- READ_BYTE and the store of its byte (R120, R152). -/
theorem endsFrom_readByte {v : Byte} {ack : Bool} {i : Nat} (hr : Ready s)
    (hu : EndsFrom (stored s i [v]) ts h .drivenLow .released ds es (tr ++ readByteTrace s.cur.half.toNat ack v) u) :
    EndsFrom s (readByte ack ++ .storeByte i :: ts) h c d (List.replicate 9 true ++ ds) (bitsOf v ++ es) tr u := by
  intro f b w hw
  have hr' := ready_later hr f b w c d (List.replicate 9 true ++ ds) (bitsOf v ++ es) tr
  have ⟨_, hbyte⟩ := readByteAssemblesBitsAndSendsAck _ v ack (.storeByte i :: ts) ds es hr'.busy hr'.hostDone hr'.pins
    hw.tasks rfl rfl
  refine ends_of_reaches hbyte ?_
  exact ends_via hu (reaches_line ⟨hr.busy, hr.hostDone⟩ rfl rfl) (eq_of_trace rfl (List.append_assoc ..))
    ⟨rfl, hw.handler, hw.opn⟩

/-! ### The byte loops -/

theorem endsFrom_writeData_done {n : Nat} (hr : Ready s) (hu : EndsFrom s ts h c d ds es tr u) :
    EndsFrom s (.writeData n n :: ts) h c d ds es tr u := fun f b w hw =>
  ends_via hu (reaches_line (ready_later hr f b w c d ds es tr).toRunning hw.tasks (if_neg (lt_irrefl n))) rfl
    ⟨rfl, hw.handler, hw.opn⟩

theorem endsFrom_writeData {j n : Nat} {v : Byte} (hr : Ready s) (hj : j < n) (hv : s.txbuf.get? j = some v)
    (hu : EndsFrom s (writeByte v ++ .writeData (j + 1) n :: ts) h c d ds es tr u) :
    EndsFrom s (.writeData j n :: ts) h c d ds es tr u := by
  intro f b w hw
  have hv' : ((later s f b w c d ds es tr).setTasks ts).txbuf.get? j = some v := hv
  have hhead : runWriteData j n ((later s f b w c d ds es tr).setTasks ts) = .next
      ((((later s f b w c d ds es tr).setTasks ts).setByteIdx j).push (writeByte v ++ [.writeData (j + 1) n])) := by
    rw [runWriteData, if_pos hj, hv']
  exact ends_via hu (reaches_line (ready_later hr f b w c d ds es tr).toRunning hw.tasks hhead) rfl
    ⟨List.append_assoc .., hw.handler, hw.opn⟩

theorem endsFrom_readData_done {n : Nat} (hr : Ready s) (hu : EndsFrom s ts h c d ds es tr u) :
    EndsFrom s (.readData n n :: ts) h c d ds es tr u := fun f b w hw =>
  ends_via hu (reaches_line (ready_later hr f b w c d ds es tr).toRunning hw.tasks (if_neg (lt_irrefl n))) rfl
    ⟨rfl, hw.handler, hw.opn⟩

theorem endsFrom_readData {i n : Nat} {ack : Bool} (hr : Ready s) (hi : i < n) (hack : decide (i + 1 < n) = ack)
    (hu : EndsFrom s (readByte ack ++ .storeByte i :: .readData (i + 1) n :: ts) h c d ds es tr u) :
    EndsFrom s (.readData i n :: ts) h c d ds es tr u := by
  subst hack
  exact fun f b w hw => ends_via hu
    (reaches_line (ready_later hr f b w c d ds es tr).toRunning hw.tasks (if_pos hi)) rfl ⟨List.append_assoc .., hw.handler, hw.opn⟩

theorem replicate_add_append (j k : Nat) :
    List.replicate (j + k) true ++ ds = List.replicate j true ++ (List.replicate k true ++ ds) := by
  rw [← List.append_assoc, List.replicate_append_replicate]

theorem replicate_nine_succ (k : Nat) :
    List.replicate (9 * (k + 1)) true ++ ds = List.replicate 9 true ++ (List.replicate (9 * k) true ++ ds) := by
  rw [Nat.mul_succ, Nat.add_comm, replicate_add_append]

/-- The bytes of TXBUF from index j on, every one of them ACKed (R149). -/
theorem endsFrom_writeBytes {data : List Byte} {j n : Nat} (hr : Ready s) (hn : j + data.length ≤ n)
    (hm : Holds s.txbuf j data)
    (hu : EndsFrom s (.writeData (j + data.length) n :: ts) h .drivenLow .released ds es
      (tr ++ data.flatMap (writeByteTrace s.cur.half.toNat false)) u) :
    EndsFrom s (.writeData j n :: ts) h .drivenLow .released (List.replicate (9 * data.length) true ++ ds)
      (List.replicate data.length false ++ es) tr u := by
  induction data generalizing j tr with
  | nil => simpa using hu
  | cons v data ih =>
    obtain ⟨hv, hm⟩ := holds_cons hm
    rw [List.length_cons] at hn hu ⊢
    rw [replicate_nine_succ]
    refine endsFrom_writeData hr (by omega) hv (endsFrom_writeByte hr (ih (by omega) hm ?_))
    rw [Nat.add_right_comm, Nat.add_assoc]
    exact hu.of_trace (by simp)

/-- The bytes of a read that are ACKed, all but the last (R152, R154). -/
theorem endsFrom_readBytes {got : List Byte} {i n : Nat} (hr : Ready s) (hn : i + got.length < n)
    (hcount : s.reg.rxCount = BitVec.ofNat 16 i)
    (hu : EndsFrom (stored s i got) (.readData (i + got.length) n :: ts) h .drivenLow .released ds es
      (tr ++ got.flatMap (readByteTrace s.cur.half.toNat true)) u) :
    EndsFrom s (.readData i n :: ts) h .drivenLow .released (List.replicate (9 * got.length) true ++ ds)
      (got.flatMap bitsOf ++ es) tr u := by
  induction got generalizing s i tr with
  | nil => simpa [stored_nil hcount] using hu
  | cons v got ih =>
    rw [List.length_cons] at hn hu ⊢
    rw [replicate_nine_succ, List.flatMap_cons, List.append_assoc]
    refine endsFrom_readData hr (by omega) (decide_eq_true (by omega)) (endsFrom_readByte hr ?_)
    refine ih (ready_stored hr ..) (by omega) rfl ?_
    rw [stored_cons, Nat.add_right_comm, Nat.add_assoc]
    exact hu.of_trace (by simp [stored])

/-- The trace of a read's bytes: all are ACKed but the last (R154). -/
theorem readBytesTrace_append (k : Nat) (got : List Byte) (v : Byte) :
    readBytesTrace k (got ++ [v]) = got.flatMap (readByteTrace k true) ++ readByteTrace k false v := by
  induction got with
  | nil => rfl
  | cons w got ih =>
    cases got with
    | nil => simp [readBytesTrace]
    | cons x got => simpa [readBytesTrace] using ih

/-- All the bytes of a read (R152). -/
theorem endsFrom_readAll {data : List Byte} {n : Nat} (hr : Ready s) (hn : data.length = n) (hcount : s.reg.rxCount = 0)
    (hu : EndsFrom (stored s 0 data) ts h .drivenLow .released ds es (tr ++ readBytesTrace s.cur.half.toNat data) u) :
    EndsFrom s (.readData 0 n :: ts) h .drivenLow .released (List.replicate (9 * n) true ++ ds)
      (data.flatMap bitsOf ++ es) tr u := by
  subst hn
  induction data using List.reverseRecOn with
  | nil => exact endsFrom_readData_done hr (by simpa [stored_nil hcount, readBytesTrace] using hu)
  | append_singleton got v =>
    have hlen : (got ++ [v]).length = got.length + 1 := by simp
    rw [hlen, Nat.mul_succ, replicate_add_append, List.flatMap_append, List.append_assoc]
    refine endsFrom_readBytes hr (by omega) hcount ?_
    rw [Nat.zero_add, List.flatMap_singleton]
    refine endsFrom_readData (ready_stored hr ..) (by omega) (decide_eq_false (by omega)) ?_
    refine endsFrom_readByte (ready_stored hr ..) ?_
    have hstored : stored (stored s 0 got) got.length [v] = stored s 0 (got ++ [v]) := by
      simpa using stored_append s 0 got [v]
    rw [hstored]
    refine endsFrom_readData_done (ready_stored hr ..) (hu.of_trace ?_)
    rw [readBytesTrace_append, List.append_assoc]
    rfl

/-! ### WRITE and READ -/

theorem replicate_transaction (n : Nat) :
    List.replicate (1 + 9 * (n + 1)) true ++ ds =
      true :: (List.replicate 9 true ++ (List.replicate (9 * n) true ++ ds)) := by
  rw [Nat.add_comm 1, List.replicate_succ, List.cons_append, replicate_nine_succ]

theorem txWrite_append (a : Addr) (n : Nat) (ts : List Task) :
    txWrite a n ++ ts = .onErr (.cleanup .address .write) :: (start ++ (writeByte (addrByteWrite a) ++
      .onErr (.cleanup .data .write) :: .writeData 0 n :: .onErr (.stopping .write) :: (stop ++ ts))) := by
  simp [txWrite]

theorem txRead_append (a : Addr) (n : Nat) (ts : List Task) :
    txRead a n ++ ts = .onErr (.cleanup .address .read) :: (start ++ (writeByte (addrByteRead a) ++
      .onErr (.cleanup .data .read) :: .readData 0 n :: .onErr (.stopping .read) :: (stop ++ ts))) := by
  simp [txRead]

/-- TX_WRITE with every byte ACKed (R149). -/
theorem endsFrom_txWrite {a : Addr} {n : Nat} {data : List Byte} (hr : Ready s) (hn : data.length = n)
    (hm : Holds s.txbuf 0 data)
    (hu : EndsFrom s ts (.stopping .write) .released .released ds es (tr ++ writeTrace s.cur.half.toNat a data) u) :
    EndsFrom s (txWrite a n ++ ts) h c d (List.replicate (1 + 9 * (n + 1)) true ++ ds)
      (List.replicate (n + 1) false ++ es) tr u := by
  subst hn
  rw [txWrite_append, replicate_transaction, List.replicate_succ, List.cons_append]
  refine endsFrom_onErr hr (endsFrom_start hr (endsFrom_writeByte hr (endsFrom_onErr hr ?_)))
  refine endsFrom_writeBytes hr (Nat.zero_add _).le hm ?_
  rw [Nat.zero_add]
  refine endsFrom_writeData_done hr (endsFrom_onErr hr (endsFrom_stop hr (hu.of_trace ?_)))
  simp [writeTrace]

/-- TX_READ with the address ACKed (R152). -/
theorem endsFrom_txRead {a : Addr} {n : Nat} {data : List Byte} (hr : Ready s) (hn : data.length = n)
    (hcount : s.reg.rxCount = 0)
    (hu : EndsFrom (stored s 0 data) ts (.stopping .read) .released .released ds es
      (tr ++ readTrace s.cur.half.toNat a data) u) :
    EndsFrom s (txRead a n ++ ts) h c d (List.replicate (1 + 9 * (n + 1)) true ++ ds)
      (false :: data.flatMap bitsOf ++ es) tr u := by
  rw [txRead_append, replicate_transaction, List.cons_append]
  refine endsFrom_onErr hr (endsFrom_start hr (endsFrom_writeByte hr (endsFrom_onErr hr ?_)))
  have hr' : Ready (stored s 0 data) := ready_stored hr ..
  refine endsFrom_readAll hr hn hcount (endsFrom_onErr hr' (endsFrom_stop hr' (hu.of_trace ?_)))
  simp [readTrace, stored]

end

/-- WRITE's first state (R150). -/
def writeBegun (a : Addr) (n : Half) (s : State) : State :=
  (s.accepted a n).goTo (writeTasks (s.accepted a n).work.opn) .none

theorem exec_write {s : State} {a : Addr} {n : Half} (hb : s.st.busy = false) (hi : s.st.initialized = true)
    (hn : n.toNat ≤ s.plat.bufLen) : exec (.write a n) s = .next (writeBegun a n s) :=
  exec_accepted hb (by simp [refusedByTable, hi, hn])

/-- READ's first state (R153). -/
def readBegun (a : Addr) (n : Half) (s : State) : State :=
  (s.accepted a n).clearRxCount.goTo (readTasks (s.accepted a n).work.opn) .none

theorem exec_read {s : State} {a : Addr} {n : Half} (hb : s.st.busy = false) (hi : s.st.initialized = true)
    (hn : n.toNat ≤ s.plat.bufLen) : exec (.read a n) s = .next (readBegun a n s) :=
  exec_accepted hb (by simp [refusedByTable, hi, hn])

/-- Settles O33: TX_WRITE, then finish. -/
theorem writeSendsItsBytes : Obligations.WriteSendsItsBytes := by
  intro s a n data scl sda hb hn hi hp hlen hdata hscl hsda
  have hr : Ready (writeBegun a n s) := ⟨⟨rfl, hn⟩, hp⟩
  have hend : Ends (writeBegun a n s) _ := EndsFrom.ends rfl hscl hsda (endsFrom_txWrite hr
    (Memory.readFrom_length hdata) (holds_of_readFrom hdata) (endsFrom_finish hr .none .none .write))
  exact ⟨_, exec_write hb hi hlen, hend⟩

/-- Settles O34: TX_READ, then finish. -/
theorem readStoresTheBytesSent : Obligations.ReadStoresTheBytesSent := by
  intro s a n data scl sda hb hn hi hp hlen hdata hscl hsda
  have hr : Ready (readBegun a n s) := ⟨⟨rfl, hn⟩, hp⟩
  have hend : Ends (readBegun a n s) _ := EndsFrom.ends rfl hscl hsda (endsFrom_txRead hr hdata rfl
    (endsFrom_finish (ready_stored hr 0 data) .none .none .read))
  have hcount : BitVec.ofNat 16 (0 + data.length) = n := by simp [hdata]
  simp only [stored, hcount] at hend
  exact ⟨_, exec_read hb hi hlen, hend⟩

end Sys2Proof.Proofs
end

section
/-! Bus errors of a transaction (R203, R205): where each one is raised, and the cleanup STOP after it. -/

namespace Sys2Proof.Proofs

open Sys2Proof.Machine Sys2Proof.Safety

/-! ### The cleanup STOP -/

/-- The command has ended with an error and the cleanup STOP, the draws ds and es left and tr traced. -/
def failed (s : State) (e : ErrCode) (ph : Phase) (dir : Dir) (ds es : List Bool) (tr : List Action) : State :=
  { s with
    st := failedStatus s.st e ph dir .released .released
    env := { s.env with sclDraws := ds, sdaDraws := es }
    trace := s.trace ++ tr }

theorem finishDir_of_ne {ph : Phase} (h : ph ≠ .none) (dir : Dir) : finishDir ph dir = dir := by
  cases ph with
  | none => exact absurd rfl h
  | address | data | stop => rfl

section
variable {s u : State} {ts : List Task} {h : Handler} {c d : LineState} {ds es : List Bool} {tr : List Action}
  {ph : Phase} {dir : Dir} {tr' : List Action}

theorem ends_raise {v : State} {f : FsmState} {b : Bool} {w : Work} (hr : Ready s) (hf : s.st.stopFail = false)
    (hph : ph ≠ .none) (e : ErrCode) (hv : v = later s f b w c d ds es tr)
    (hw : StandsAt w ts (.cleanup ph dir) s.work.opn) :
    Ends (v.raise e) (failed s e ph dir ds es (tr ++ stopTrace s.cur.half.toNat)) := by
  have hraise : v.raise e =
      later s f b { w with tasks := stop ++ [.finish e ph dir], handler := .cleaning e ph dir } c d ds es tr := by
    rw [hv]
    simp only [State.raise, later, hw.handler]
    rfl
  have hend := endsFrom_stop (h := .cleaning e ph dir) (c := c) (d := d) hr
    (endsFrom_finish (ts := []) (ds := ds) (es := es) (tr := tr ++ stopTrace s.cur.half.toNat) hr e ph dir)
  have hst : failedStatus s.st e ph dir .released .released =
      { s.st with
        busy := false, errCode := e, errPhase := ph, errDir := finishDir ph dir, stretchWait := false, fsm := .idle
        scl := .released, sda := .released } := by
    simp only [failedStatus, finishDir_of_ne hph, hf]
  rw [hraise, failed, hst]
  refine hend f b _ ?_
  exact ⟨rfl, rfl, hw.opn⟩

/-- SCL never reads 1 (R106). -/
theorem endsFrom_timeout (hr : Ready s) (hf : s.st.stopFail = false) (hph : ph ≠ .none)
    (htr : tr' = tr ++ timeoutTrace s.cur) :
    EndsFrom s (.waitHigh :: ts) (.cleanup ph dir) .released d (timeoutDraws s.cur ++ ds) es tr
      (failed s .clockTimeout ph dir ds es tr') := by
  intro f b w hw
  have hr' := ready_later hr f b w .released d (timeoutDraws s.cur ++ ds) es tr
  refine ends_of_reaches
    (waitClockHighTimesOut _ ts ds hr'.busy hr'.hostDone hw.tasks rfl hr'.pins.1 rfl) ?_
  rw [htr, timeoutTrace, ← List.append_assoc]
  refine ends_raise hr hf hph .clockTimeout (eq_of_trace rfl ?_) ⟨rfl, hw.handler, hw.opn⟩
  simp [later]

/-- The slave NACKs the byte (R116). -/
theorem endsFrom_nack {b : Byte} (hr : Ready s) (hf : s.st.stopFail = false) (hph : ph ≠ .none)
    (htr : tr' = tr ++ writeByteTrace s.cur.half.toNat true b ++ stopTrace s.cur.half.toNat) :
    EndsFrom s (writeByte b ++ ts) (.cleanup ph dir) c d (List.replicate 9 true ++ ds) (true :: es) tr
      (failed s .nack ph dir ds es tr') := by
  subst htr
  intro f b' w hw
  have hr' := ready_later hr f b' w c d (List.replicate 9 true ++ ds) (true :: es) tr
  have ⟨_, hbyte⟩ := writeByteSendsBitsAndSamplesAck _ b true ts ds es hr'.busy hr'.hostDone hr'.pins hw.tasks rfl rfl
  exact ends_of_reaches hbyte
    (ends_raise hr hf hph .nack (eq_of_trace rfl (List.append_assoc ..)) ⟨rfl, hw.handler, hw.opn⟩)

/-! ### Lines up to the error -/

theorem endsFrom_fsm {f' : FsmState} (hr : Ready s) (hu : EndsFrom s ts h c d ds es tr u) :
    EndsFrom s (.fsm f' :: ts) h c d ds es tr u := fun f b w hw =>
  ends_via hu (reaches_fsm (ready_later hr f b w c d ds es tr) hw.tasks) rfl ⟨rfl, hw.handler, hw.opn⟩

theorem endsFrom_bit {f' : FsmState} {i : BitVec 3} (hr : Ready s) (hu : EndsFrom s ts h c d ds es tr u) :
    EndsFrom s (.bit f' i :: ts) h c d ds es tr u := fun f b w hw =>
  ends_via hu (reaches_bit (ready_later hr f b w c d ds es tr) hw.tasks) rfl ⟨rfl, hw.handler, hw.opn⟩

theorem endsFrom_clearShift (hr : Ready s) (hu : EndsFrom s ts h c d ds es tr u) :
    EndsFrom s (.clearShift :: ts) h c d ds es tr u := fun f b w hw =>
  ends_via hu (reaches_line (ready_later hr f b w c d ds es tr).toRunning hw.tasks rfl) rfl ⟨rfl, hw.handler, hw.opn⟩

theorem endsFrom_sleepDelay (hr : Ready s) (hu : EndsFrom s ts h c d ds es (tr ++ [.slp s.work.opn.delay.toNat]) u) :
    EndsFrom s (.sleepDelay :: ts) h c d ds es tr u := fun f b w hw =>
  ends_via hu (reaches_line (ready_later hr f b w c d ds es tr).toRunning hw.tasks rfl)
    (eq_of_trace rfl (by rw [← hw.opn]; exact List.append_assoc ..)) ⟨rfl, hw.handler, hw.opn⟩

theorem endsFrom_pinLines {ks : List Task} (hr : Ready s) (hk : ks.all isPinLine = true)
    (hu : EndsFrom s ts h (linesBy .scl c ks) (linesBy .sda d ks) ds es
      (tr ++ ks.flatMap (pinActions s.cur.half.toNat)) u) :
    EndsFrom s (ks ++ ts) h c d ds es tr u := fun f b w hw =>
  ends_via hu (reaches_pinLines (ready_later hr f b w c d ds es tr) hk hw.tasks)
    (eq_of_trace rfl (List.append_assoc ..)) ⟨rfl, hw.handler, hw.opn⟩

theorem endsFrom_writeBit {b : Byte} {i : BitVec 3} (hr : Ready s)
    (hu : ∀ d, EndsFrom s ts h .released d ds es (tr ++ writeBitTrace s.cur.half.toNat (b.getLsbD i.toNat)) u) :
    EndsFrom s (writeBit b i ++ ts) h c d (true :: ds) es tr u := fun f b' w hw =>
  ends_via (hu _) (reaches_writeBit (ready_later hr f b' w c d _ es tr) hw.tasks rfl)
    (eq_of_trace rfl (List.append_assoc ..)) ⟨rfl, hw.handler, hw.opn⟩

theorem endsFrom_writeBits {b : Byte} {is : List (BitVec 3)} (hr : Ready s)
    (hu : ∀ c d, EndsFrom s ts h c d ds es
      (tr ++ (is.map fun i => b.getLsbD i.toNat).flatMap (writeBitTrace s.cur.half.toNat)) u) :
    EndsFrom s (is.flatMap (writeBit b) ++ ts) h c d (List.replicate is.length true ++ ds) es tr u := by
  induction is generalizing c d tr with
  | nil => exact (hu c d).of_trace (List.append_nil _).symm
  | cons i is ih =>
    rw [List.flatMap_cons, List.append_assoc, List.length_cons, List.replicate_succ, List.cons_append]
    exact endsFrom_writeBit hr fun d' => ih fun c' d' => (hu c' d').of_trace (by simp)

theorem endsFrom_readBit {v : Bool} {i : BitVec 3} (hr : Ready s)
    (hu : EndsFrom s ts h .drivenLow .released ds es (tr ++ readBitTrace s.cur.half.toNat v) u) :
    EndsFrom s (readBit i ++ ts) h c .released (true :: ds) (v :: es) tr u := fun f b w hw =>
  ends_via hu (reaches_readBit (ready_later hr f b w c .released _ _ tr) hw.tasks rfl rfl rfl)
    (eq_of_trace rfl (List.append_assoc ..)) ⟨rfl, hw.handler, hw.opn⟩

theorem endsFrom_readBits {bits : List Bool} {is : List (BitVec 3)} (hr : Ready s) (hl : bits.length = is.length)
    (hu : ∀ c, EndsFrom s ts h c .released ds es (tr ++ bits.flatMap (readBitTrace s.cur.half.toNat)) u) :
    EndsFrom s (is.flatMap readBit ++ ts) h c .released (List.replicate bits.length true ++ ds) (bits ++ es) tr u := by
  induction is generalizing bits c tr with
  | nil =>
    obtain rfl := List.length_eq_zero_iff.1 hl
    exact (hu c).of_trace (List.append_nil _).symm
  | cons i is ih =>
    cases bits with
    | nil => cases hl
    | cons v bits =>
      rw [List.flatMap_cons, List.append_assoc, List.length_cons, List.replicate_succ, List.cons_append]
      exact endsFrom_readBit hr (ih (Nat.succ.inj hl) fun c' => (hu c').of_trace (by simp))

/-! ### ClockTimeout in a byte -/

/-- The data bits before the one at index m, that bit, and the bits after it. -/
theorem bitsDown_split {m : Nat} (hm : m < 8) : ∃ is i js, bitsDown = is ++ i :: js ∧ is.length = m := by
  have hlen : m < bitsDown.length := hm
  exact ⟨bitsDown.take m, bitsDown[m], bitsDown.drop (m + 1), by simp, List.length_take_of_le hlen.le⟩

theorem endsFrom_cutStart (hr : Ready s) (hf : s.st.stopFail = false) (hph : ph ≠ .none)
    (htr : tr' = tr ++ [.pu .scl] ++ timeoutTrace s.cur) :
    EndsFrom s (start ++ ts) (.cleanup ph dir) c d (timeoutDraws s.cur ++ ds) es tr
      (failed s .clockTimeout ph dir ds es tr') :=
  endsFrom_fsm hr (endsFrom_pinLines (ks := [.pullup .scl]) hr rfl (endsFrom_timeout hr hf hph htr))

/-- WRITE_BYTE up to the polling that times out (R114, R116). -/
theorem endsFrom_cutWriteByte {b : Byte} {m : Nat} (hr : Ready s) (hf : s.st.stopFail = false) (hph : ph ≠ .none)
    (hm : m ≤ 8) (htr : tr' = tr ++ cutWriteByteTrace s.cur.half.toNat b m ++ timeoutTrace s.cur) :
    EndsFrom s (writeByte b ++ ts) (.cleanup ph dir) c d (List.replicate m true ++ (timeoutDraws s.cur ++ ds)) es tr
      (failed s .clockTimeout ph dir ds es tr') := by
  obtain hm | rfl := Nat.lt_or_eq_of_le hm
  · obtain ⟨is, i, js, hsplit, rfl⟩ := bitsDown_split hm
    rw [writeByte, hsplit, List.flatMap_append, List.flatMap_cons, List.append_assoc, List.append_assoc,
      List.append_assoc]
    refine endsFrom_writeBits hr fun c' d' => endsFrom_bit hr ?_
    cases hb : b.getLsbD i.toNat <;>
      (refine endsFrom_pinLines (ks := [.low .scl, sdaTo _, .sleepHalf, .pullup .scl, .sleepHalf]) hr rfl ?_
       refine endsFrom_timeout hr hf hph (htr.trans ?_)
       simp [cutWriteByteTrace, bitsOf_eq_map, hsplit, sdaTo, pinActions, hb])
  · rw [writeByte, List.append_assoc]
    refine endsFrom_writeBits (is := bitsDown) hr fun c' d' => endsFrom_bit hr ?_
    refine endsFrom_pinLines (ks := [.low .scl, .pullup .sda, .sleepHalf, .pullup .scl]) hr rfl ?_
    refine endsFrom_timeout hr hf hph (htr.trans ?_)
    simp [cutWriteByteTrace, bitsOf_eq_map, bitsDown, pinActions]

/-- READ_BYTE up to the polling that times out (R118, R119). -/
theorem endsFrom_cutReadByte {ack : Bool} {bits : List Bool} (hr : Ready s) (hf : s.st.stopFail = false)
    (hph : ph ≠ .none) (hl : bits.length ≤ 8)
    (htr : tr' = tr ++ cutReadByteTrace s.cur.half.toNat ack bits ++ timeoutTrace s.cur) :
    EndsFrom s (readByte ack ++ ts) (.cleanup ph dir) c d
      (List.replicate bits.length true ++ (timeoutDraws s.cur ++ ds)) (bits ++ es) tr
      (failed s .clockTimeout ph dir ds es tr') := by
  rw [readByte, List.append_assoc, List.append_assoc]
  refine endsFrom_fsm hr (endsFrom_pinLines (ks := [.pullup .sda]) hr rfl (endsFrom_clearShift hr ?_))
  obtain hl | hl := Nat.lt_or_eq_of_le hl
  · obtain ⟨is, i, js, hsplit, hlen⟩ := bitsDown_split hl
    rw [hsplit, List.flatMap_append, List.flatMap_cons, List.append_assoc, List.append_assoc]
    refine endsFrom_readBits hr hlen.symm fun c' => endsFrom_bit hr ?_
    refine endsFrom_pinLines (ks := [.sleepHalf, .pullup .scl]) hr rfl ?_
    refine endsFrom_timeout hr hf hph (htr.trans ?_)
    simp [cutReadByteTrace, pinActions, hl]
  · refine endsFrom_readBits (is := bitsDown) hr hl fun c' => endsFrom_bit hr ?_
    cases ack <;>
      (refine endsFrom_pinLines (ks := [sdaTo _, .sleepHalf, .pullup .scl, .sleepHalf]) hr rfl ?_
       refine endsFrom_timeout hr hf hph (htr.trans ?_)
       simp [cutReadByteTrace, sdaTo, pinActions, hl])

/-! ### Where a transaction fails -/

theorem bytePhase_ne_none (sent : List Byte) : bytePhase sent ≠ .none := by
  unfold bytePhase
  split <;> nofun

/-- A run from the lines ts in which, the bytes `sent` of `bytes` having been ACKed, the sequencer comes to the byte b
after them. -/
def ComesToByte (s : State) (ts : List Task) (h : Handler) (c d : LineState) (tr : List Action) (dir : Dir)
    (bytes : List Byte) : Prop :=
  ∀ ⦃sent rest b⦄, bytes = sent ++ b :: rest → ∀ ds es u,
    (∀ us c d, EndsFrom s (writeByte b ++ us) (.cleanup (bytePhase sent) dir) c d ds es
      (tr ++ sentTrace s.cur.half.toNat sent) u) →
    EndsFrom s ts h c d (List.replicate (1 + 9 * sent.length) true ++ ds) (List.replicate sent.length false ++ es) tr u

theorem comesToByte_txWrite {a : Addr} {n : Nat} {data : List Byte} (hr : Ready s) (hn : data.length ≤ n)
    (hm : Holds s.txbuf 0 data) :
    ComesToByte s (txWrite a n ++ ts) h c d tr .write (addrByteWrite a :: data) := by
  intro sent rest b hsplit ds es u hu
  rw [txWrite_append]
  cases sent with
  | nil =>
    obtain ⟨rfl, rfl⟩ := List.cons.inj hsplit
    refine endsFrom_onErr hr (endsFrom_start hr ?_)
    exact (hu _ _ _).of_trace (by simp [sentTrace])
  | cons a' sent =>
    obtain ⟨rfl, hdata⟩ : addrByteWrite a = a' ∧ data = sent ++ b :: rest := List.cons.inj hsplit
    subst hdata
    obtain ⟨hm, hm'⟩ := holds_append hm
    obtain ⟨hb, -⟩ := holds_cons hm'
    rw [List.length_append, List.length_cons] at hn
    rw [List.length_cons, replicate_transaction, List.replicate_succ, List.cons_append]
    refine endsFrom_onErr hr (endsFrom_start hr (endsFrom_writeByte hr (endsFrom_onErr hr ?_)))
    refine endsFrom_writeBytes hr (by omega) hm (endsFrom_writeData hr (by omega) hb ?_)
    exact (hu _ _ _).of_trace (by simp [sentTrace])

theorem comesToByte_txRead {a : Addr} {n : Nat} (hr : Ready s) :
    ComesToByte s (txRead a n ++ ts) h c d tr .read [addrByteRead a] := by
  intro sent rest b hsplit ds es u hu
  rw [txRead_append]
  cases sent with
  | nil =>
    obtain ⟨rfl, rfl⟩ := List.cons.inj hsplit
    refine endsFrom_onErr hr (endsFrom_start hr ?_)
    exact (hu _ _ _).of_trace (by simp [sentTrace])
  | cons a' sent => simp at hsplit

/-- Every bus error of START and of the bytes written (R149). -/
theorem endsFrom_writeFails {x : BusError} {bytes : List Byte} {us : List Task} (hr : Ready s)
    (hf : s.st.stopFail = false) (hx : WriteFails s.cur bytes x)
    (hts : ts = .onErr (.cleanup .address dir) :: (start ++ us)) (hb : ComesToByte s ts h c d tr dir bytes) :
    EndsFrom s ts h c d (x.sclDraws ++ ds) (x.sdaDraws ++ es) tr
      (failed s x.err x.phase dir ds es (tr ++ x.trace)) := by
  cases hx with
  | start =>
    subst hts
    exact endsFrom_onErr hr (endsFrom_cutStart hr hf nofun (List.append_assoc ..).symm)
  | nack hsplit =>
    have hdraws (k : Nat) : List.replicate (1 + 9 * (k + 1)) true ++ ds =
        List.replicate (1 + 9 * k) true ++ (List.replicate 9 true ++ ds) := by
      rw [Nat.mul_succ, ← Nat.add_assoc, replicate_add_append]
    simp only [byteNacked, hdraws, List.append_assoc, List.singleton_append]
    exact hb hsplit _ _ _ fun us c d => endsFrom_nack hr hf (bytePhase_ne_none _) (by simp)
  | timeout hsplit hm =>
    rw [byteTimesOut, List.append_assoc, replicate_add_append]
    exact hb hsplit _ _ _ fun us c d => endsFrom_cutWriteByte hr hf (bytePhase_ne_none _) hm (by simp)

/-- Every bus error of a read, the bytes before it stored and counted (R152). -/
theorem endsFrom_readFails {x : BusError} {a : Addr} {n : Nat} {got : List Byte} (hr : Ready s)
    (hf : s.st.stopFail = false) (hcount : s.reg.rxCount = 0) (hx : ReadFails s.cur a n got x) :
    EndsFrom s (txRead a n ++ ts) h c d (x.sclDraws ++ ds) (x.sdaDraws ++ es) tr
      (failed (stored s 0 got) x.err x.phase .read ds es (tr ++ x.trace)) := by
  cases hx with
  | address hx =>
    rw [stored_nil hcount]
    exact endsFrom_writeFails hr hf hx (txRead_append a n ts) (comesToByte_txRead hr)
  | data hgot hbits =>
    rename_i bits
    have hdraws : List.replicate (1 + 9 * (got.length + 1) + bits.length) true ++ timeoutDraws s.cur ++ ds =
        true :: (List.replicate 9 true ++ (List.replicate (9 * got.length) true ++
          (List.replicate bits.length true ++ (timeoutDraws s.cur ++ ds)))) := by
      rw [List.append_assoc, replicate_add_append, replicate_transaction]
    simp only [readByteTimesOut, hdraws, txRead_append, List.cons_append, List.append_assoc]
    refine endsFrom_onErr hr (endsFrom_start hr (endsFrom_writeByte hr (endsFrom_onErr hr ?_)))
    refine endsFrom_readBytes hr (by omega) hcount ?_
    rw [Nat.zero_add]
    refine endsFrom_readData (ready_stored hr ..) hgot rfl ?_
    exact endsFrom_cutReadByte (ready_stored hr ..) hf nofun hbits (by simp [sentTrace, stored])

end

/-- DCR's first state (R182). -/
def dcrBegun (a : Addr) (n : Half) (s : State) : State :=
  (s.accepted a n).dcrPrepare.goTo (dcrTasks (s.accepted a n).work.opn) .none

theorem exec_dcr {s : State} {a : Addr} {n : Half} (hb : s.st.busy = false) (hi : s.st.initialized = true)
    (hw : n.toNat ≤ s.plat.wbufLen) (hraw : 3 * n.toNat ≤ s.plat.bufLen) :
    exec (.dcr a n) s = .next (dcrBegun a n s) :=
  exec_accepted hb (by simp [refusedByTable, hi, hw, hraw])

theorem dcrTasks_append (o : Opn) :
    dcrTasks o = txWrite o.addr 2 ++ (.fsm .delay :: .sleepDelay :: (txRead o.addr (rawLen o.n) ++ [.decodeRaw])) := by
  simp [dcrTasks]

theorem Ends.reaches {s u : State} {v : Work → State} (h : Ends s u) (hv : ∀ w, { u with work := w } = v w) :
    ∃ w : Work, w.tasks = [] ∧ w.handler = .none ∧ Reaches s (v w) := by
  obtain ⟨w, ht, hh, -, hr⟩ := h
  exact ⟨w, ht, hh, hv w ▸ hr⟩

/-- Settles O35: each bus error is raised in the line that polls or samples, under the clause of its phase, in the byte
that the transaction has come to. -/
theorem busErrorsEndWithStopAndNameTheirPhase : Obligations.BusErrorsEndWithStopAndNameTheirPhase := by
  intro s a n scl sda x hb hn hi hp cmd after
  have hwrite : Ready (writeBegun a n s) := ⟨⟨rfl, hn⟩, hp⟩
  have hread : Ready (readBegun a n s) := ⟨⟨rfl, hn⟩, hp⟩
  have hdcr : Ready (dcrBegun a n s) := ⟨⟨rfl, hn⟩, hp⟩
  have hcmd : Holds (dcrBegun a n s).txbuf 0 cmd := holds_writeFrom s.txbuf 0 cmd
  refine ⟨fun data hlen hdl hdata hx hscl hsda => ⟨_, exec_write hb hi hlen, ?_⟩,
    fun got hlen hx hscl hsda => ⟨_, exec_read hb hi hlen, ?_⟩,
    fun hw hraw hx hscl hsda => ⟨_, exec_dcr hb hi hw hraw, ?_⟩,
    fun got hw hraw _ hx hscl hsda => ⟨_, exec_dcr hb hi hw hraw, ?_⟩⟩
  · have hend : Ends (writeBegun a n s) (failed (writeBegun a n s) x.err x.phase .write scl sda ([] ++ x.trace)) := by
      refine EndsFrom.ends rfl hscl hsda (endsFrom_writeFails hwrite rfl hx (txWrite_append ..) ?_)
      exact comesToByte_txWrite hwrite hdl (holds_of_readFrom hdata)
    exact hend.reaches fun w => eq_of_trace rfl (by simp [after, failed, writeBegun])
  · have hend : Ends (readBegun a n s)
        (failed (stored (readBegun a n s) 0 got) x.err x.phase .read scl sda ([] ++ x.trace)) :=
      EndsFrom.ends rfl hscl hsda (endsFrom_readFails hread rfl rfl hx)
    refine hend.reaches fun w => eq_of_trace ?_ (by simp [after, failed, readBegun, stored])
    rw [failed, stored, Nat.zero_add]
    rfl
  · have hend : Ends (dcrBegun a n s) (failed (dcrBegun a n s) x.err x.phase .write scl sda ([] ++ x.trace)) := by
      refine EndsFrom.ends (dcrTasks_append _) hscl hsda (endsFrom_writeFails hdcr rfl hx (txWrite_append ..) ?_)
      exact comesToByte_txWrite hdcr le_rfl hcmd
    exact hend.reaches fun w => eq_of_trace rfl (by simp [after, failed, dcrBegun, State.dcrPrepare])
  · have hend : Ends (dcrBegun a n s) (failed (stored (dcrBegun a n s) 0 got) x.err x.phase .read scl sda
        ([] ++ writeTrace s.cur.half.toNat a cmd ++ [.slp s.reg.argDelay.toNat] ++ x.trace)) := by
      rw [List.append_assoc] at hscl hsda
      refine EndsFrom.ends (dcrTasks_append _) hscl hsda ?_
      refine endsFrom_txWrite (data := cmd) hdcr rfl hcmd (endsFrom_fsm hdcr (endsFrom_sleepDelay hdcr ?_))
      exact endsFrom_readFails hdcr rfl rfl hx
    refine hend.reaches fun w => eq_of_trace ?_ (by simp [after, failed, dcrBegun, State.dcrPrepare, stored])
    rw [failed, stored, Nat.zero_add]
    rfl

end Sys2Proof.Proofs
end

section
/-! The CRC-8 (R170, R171): the function of R170 on natural numbers, and one-to-one in the register and in each byte. -/

namespace Sys2Proof.Proofs

open Sys2Proof.Machine Sys2Proof.Safety

/-! ### R170's function -/

/-- Bit 7 of a byte is 1 from 128 on. -/
theorem getLsbD_seven (c : Byte) : c.getLsbD 7 = decide (128 ≤ c.toNat) :=
  c.msb_eq_getLsbD_last.symm.trans c.msb_eq_decide

theorem toNat_crcShift (c : Byte) : (crcShift c).toNat = crcIteration c.toNat := by
  have hshift : (c <<< 1).toNat = 2 * c.toNat % 256 := by
    rw [BitVec.toNat_shiftLeft, Nat.shiftLeft_eq, Nat.mul_comm]
  rw [crcShift, crcIteration, getLsbD_seven]
  by_cases h : 128 ≤ c.toNat
  · simp only [h, decide_true, if_true, BitVec.toNat_xor, hshift]
    rfl
  · simp only [h, decide_false, if_false, Bool.false_eq_true, hshift]
    omega

theorem toNat_repeat_crcShift (k : Nat) (c : Byte) :
    (Nat.repeat crcShift k c).toNat = Nat.repeat crcIteration k c.toNat := by
  induction k with
  | zero => rfl
  | succ k ih => rw [Nat.repeat, toNat_crcShift, ih, Nat.repeat]

theorem toNat_crcByte (c b : Byte) : (crcByte c b).toNat = Nat.repeat crcIteration 8 (c.toNat ^^^ b.toNat) :=
  toNat_repeat_crcShift 8 (c ^^^ b)

/-- One side is unfolded alone: `rfl` would first compare the two registers and evaluate the eight iterations, each of
which names its argument more than once. -/
theorem crcOf_cons (c b : Nat) (bs : List Nat) :
    crcOf c (b :: bs) = crcOf (Nat.repeat crcIteration 8 (c ^^^ b)) bs := by
  conv_lhs => unfold crcOf

theorem toNat_crc8 (bs : List Byte) (init : Byte) : (crc8 bs init).toNat = crcOf init.toNat (bs.map (·.toNat)) := by
  induction bs generalizing init with
  | nil => rfl
  | cons b bs ih =>
    calc (crc8 (b :: bs) init).toNat = crcOf (crcByte init b).toNat (bs.map (·.toNat)) := ih (crcByte init b)
      _ = crcOf init.toNat ((b :: bs).map (·.toNat)) := by
        rw [toNat_crcByte init b, List.map_cons, crcOf_cons]

/-! ### Single-bit errors (R180) -/

/-- Bit 0 of the shifted register is the bit shifted out, as 0x31 is odd. -/
theorem getLsbD_zero_crcShift (c : Byte) : (crcShift c).getLsbD 0 = c.getLsbD 7 := by
  cases h : c.getLsbD 7 <;> rw [crcShift, h] <;> simp

/-- The bit shifted out is not lost: it can be read off bit 0. -/
theorem crcShift_injective : Function.Injective crcShift := by
  intro x y hxy
  have htop : x.getLsbD 7 = y.getLsbD 7 := by
    rw [← getLsbD_zero_crcShift, ← getLsbD_zero_crcShift, hxy]
  have hshift : x <<< 1 = y <<< 1 := by
    unfold crcShift at hxy
    rw [htop] at hxy
    split at hxy
    · exact (BitVec.xor_left_inj _).1 hxy
    · exact hxy
  refine BitVec.eq_of_getLsbD_eq fun i hi => ?_
  obtain hlast | rfl : i + 1 < 8 ∨ i = 7 := by omega
  · have hbit (z : Byte) : (z <<< 1).getLsbD (i + 1) = z.getLsbD i := by simp [hi, hlast]
    rw [← hbit x, ← hbit y, hshift]
  · exact htop

theorem repeat_injective {α : Type} {f : α → α} (hf : Function.Injective f) (k : Nat) :
    Function.Injective (Nat.repeat f k) := by
  induction k with
  | zero => exact Function.injective_id
  | succ k ih => exact hf.comp ih

theorem crcByte_inj {c c' b b' : Byte} : crcByte c b = crcByte c' b' ↔ c ^^^ b = c' ^^^ b' :=
  (repeat_injective crcShift_injective 8).eq_iff

theorem crc8_first_inj {x y b init : Byte} : crc8 [x, b] init = crc8 [y, b] init ↔ x = y :=
  crcByte_inj.trans ((BitVec.xor_left_inj b).trans (crcByte_inj.trans (BitVec.xor_right_inj init)))

theorem crc8_last_inj {b x y init : Byte} : crc8 [b, x] init = crc8 [b, y] init ↔ x = y :=
  crcByte_inj.trans (BitVec.xor_right_inj _)

theorem flipped_ne (x : Byte) {k : Nat} (hk : k < 8) : x ^^^ 1#8 <<< k ≠ x := by
  intro h
  have hbit : (1#8 <<< k).getLsbD k = false := by rw [xor_left_eq_self_iff.1 h]; exact BitVec.getLsbD_zero
  simp [hk] at hbit

end Sys2Proof.Proofs
end

section
/-! Words and their groups of three bytes (R65, R174, R176). -/

namespace Sys2Proof.Proofs

open Sys2Proof.Machine Sys2Proof.Safety

theorem hiByte_append_loByte (w : Half) : hiByte w ++ loByte w = w := BitVec.extractLsb'_append_extractLsb'

theorem decodeWords_badGroup {init hi lo c : Byte} (h : crc8 [hi, lo] init ≠ c) (rest : List Byte) :
    decodeWords init (hi :: lo :: c :: rest) = none := if_neg h

/-- Good groups are passed over, and their words kept (R176, R177). -/
theorem decodeWords_wordGroups_append (init : Byte) (ws : List Half) (raw : List Byte) :
    decodeWords init (ws.flatMap (wordGroup init) ++ raw) = (decodeWords init raw).map (ws ++ ·) := by
  induction ws with
  | nil => simp
  | cons w ws ih =>
    rw [List.flatMap_cons, List.append_assoc]
    simp only [wordGroup, List.cons_append, List.nil_append, decodeWords, if_true, hiByte_append_loByte, ih,
      Option.map_map]
    rfl

/-- Byte i of group j (R174). -/
theorem wordGroups_get? {init : Byte} {ws : List Half} {j : Nat} {w : Half} (hw : ws[j]? = some w) {i : Nat}
    (hi : i < 3) : (ws.flatMap (wordGroup init))[3 * j + i]? = (wordGroup init w)[i]? := by
  induction ws generalizing j with
  | nil => cases hw
  | cons v ws ih =>
    have hlen : (wordGroup init v).length = 3 := rfl
    rw [List.flatMap_cons]
    cases j with
    | zero =>
      cases hw
      rw [Nat.mul_zero, Nat.zero_add, List.getElem?_append_left (hlen ▸ hi)]
    | succ j =>
      rw [List.getElem?_append_right (by omega), hlen, Nat.mul_succ, Nat.add_right_comm, Nat.add_sub_cancel]
      exact ih hw

/-- The groups stand after the command's two bytes (R174). -/
theorem encodeCommand_get?_group {args : List Half} {j : Nat} {x : Half} (hx : args[j]? = some x) {i : Nat} (hi : i < 3)
    (cmd : Half) (init : Byte) : (encodeCommand cmd args init)[3 * j + i + 2]? = (wordGroup init x)[i]? :=
  wordGroups_get? hx hi

/-- Settles O40: good groups are passed over, and then nothing is left, or the bad group. -/
theorem encodedWordsDecodeAndTheFirstBadGroupDecides : Obligations.EncodedWordsDecodeAndTheFirstBadGroupDecides := by
  refine fun init ws => ⟨?_, fun hi lo c rest hbad => ?_⟩
  · have hdec := decodeWords_wordGroups_append init ws []
    rw [List.append_nil] at hdec
    exact hdec.trans (congrArg some (List.append_nil ws))
  · refine (decodeWords_wordGroups_append init ws _).trans ?_
    rw [decodeWords_badGroup hbad, Option.map_none]

/-- Settles O41: the CRC is one-to-one in each of the two bytes, and a flipped bit makes another byte. -/
theorem singleBitFlipsAreDetected : Obligations.SingleBitFlipsAreDetected := by
  refine fun init b0 b1 k hk => ⟨?_, ?_, ?_⟩ <;> apply decodeWords_badGroup
  · exact mt crc8_first_inj.1 (flipped_ne b0 hk)
  · exact mt crc8_last_inj.1 (flipped_ne b1 hk)
  · exact (flipped_ne _ hk).symm

end Sys2Proof.Proofs
end

section
/-! CRC8, ENCODE and DECODE, each complete in one step (R172, R175, R178). -/

namespace Sys2Proof.Proofs

open Sys2Proof.Machine Sys2Proof.Safety

theorem runCrc8_eq {u : State} {bs : List Byte} (h : u.txbuf.readFrom u.work.opn.n.toNat 0 = .ok bs) :
    runCrc8 u = .next ((u.setResult ((crc8 bs u.work.opn.init).setWidth 16)).finish .none .none .write) := by
  rw [runCrc8, State.txBytes, h]

theorem runEncode_eq {u : State} {args : List Half} (h : u.wordbuf.readFrom u.work.opn.n.toNat 0 = .ok args) :
    runEncode u = .next (((u.putTx (encodeCommand u.work.opn.cmd16 args u.work.opn.init)).setResult
      (BitVec.ofNat 16 (encodedLen u.work.opn.n))).finish .none .none .write) := by
  rw [runEncode, State.wordArgs, h]

/-- The end of DECODE and of DCR: the words are stored, or there are none to store (R178, R182). -/
def decoded (ws? : Option (List Half)) (s : State) : State :=
  match ws? with
  | none => s.finish .checksumMismatch .none .write
  | some ws => (s.putWords ws).finish .none .none .write

theorem decodeAndFinish_eq {s : State} {n : Half} {raw : List Byte} (h : s.rxbuf.readFrom (rawLen n) 0 = .ok raw)
    (init : Byte) : s.decodeAndFinish n init = .next (decoded (decodeWords init raw) s) := by
  rw [State.decodeAndFinish, State.rxBytes, h]
  cases hd : decodeWords init raw <;> simp only [hd] <;> rfl

/-- Settles O37: the rule's RESULT is the model's CRC-8, which is R170's function; R171's table is evaluated. -/
theorem crc8PutsTheCrcInResult : Obligations.Crc8PutsTheCrcInResult := by
  refine ⟨toNat_crc8, by decide +kernel, fun s n bs hb hn hbs => ?_⟩
  rw [exec_accepted (i := .crc8 n) hb (not_lt.2 hn), ← toNat_crc8, BitVec.ofNat_toNat]
  exact runCrc8_eq hbs

/-- Settles O38: TXBUF holds what was written from index 0 on, the command's bytes and then the groups, and nothing else
was written. -/
theorem encodeWritesTheFramedCommand : Obligations.EncodeWritesTheFramedCommand := by
  intro s n args hb hn hlen hargs
  have hok : ¬ refusedByTable s (.encode n) := by simp [refusedByTable, hn, hlen]
  have hn' : args.length = n.toNat := Memory.readFrom_length hargs
  have hl : (encodeCommand s.reg.argCmd args s.reg.crcInit).length = 2 + 3 * args.length := encodeCommand_length ..
  have hin : Holds (s.txbuf.writeFrom 0 (encodeCommand s.reg.argCmd args s.reg.crcInit)) 0
      (encodeCommand s.reg.argCmd args s.reg.crcInit) := holds_writeFrom _ _ _
  refine ⟨_, (exec_accepted hb hok).trans (runEncode_eq hargs), rfl, hin 0 (by omega), hin 1 (by omega),
    fun j x hx => ?_, fun k hk => ?_⟩
  · have hj : j < args.length := (List.getElem?_eq_some_iff.1 hx).1
    have hbyte (i : Nat) (hi : i < 3) : (s.txbuf.writeFrom 0 (encodeCommand s.reg.argCmd args s.reg.crcInit)).get?
        (i + 2 + 3 * j) = (wordGroup s.reg.crcInit x)[i]? := by
      rw [← encodeCommand_get?_group hx hi s.reg.argCmd, ← hin _ (by omega)]
      exact congrArg _ (by omega)
    exact ⟨hbyte 0 (by omega), hbyte 1 (by omega), hbyte 2 (by omega)⟩
  · refine (Memory.get?_writeFrom s.txbuf 0 (encodeCommand s.reg.argCmd args s.reg.crcInit) k).trans (if_neg ?_)
    omega

/-- Settles O39: `decoded` stores the words exactly when there are some. -/
theorem decodeStoresWordsOnlyWhenEveryCrcAgrees : Obligations.DecodeStoresWordsOnlyWhenEveryCrcAgrees := by
  intro s n raw hb hn hlen hraw
  have hexec : exec (.decode n) s = .next (decoded (decodeWords s.reg.crcInit raw) (s.accepted 0 n)) :=
    (exec_accepted hb (by simp [refusedByTable, hn, hlen])).trans (decodeAndFinish_eq (s := s.accepted 0 n) hraw _)
  refine ⟨fun ws hd => ⟨decodeWords_length (Memory.readFrom_length hraw) hd, ?_⟩, fun hd => ?_⟩ <;>
    rw [hexec, hd] <;> rfl

end Sys2Proof.Proofs
end

section
/-! DCR (R182): the write transaction, the delay, the read transaction and the decoding. -/

namespace Sys2Proof.Proofs

open Sys2Proof.Machine Sys2Proof.Safety

/-- Elements that are there are read (the converse of `holds_of_readFrom`). -/
theorem readFrom_of_holds {w : Nat} {m : Memory w} {j : Nat} {vs : List (BitVec w)} (h : Holds m j vs) :
    m.readFrom vs.length j = .ok vs := by
  induction vs generalizing j with
  | nil => rfl
  | cons v vs ih =>
    obtain ⟨hv, h⟩ := holds_cons h
    rw [List.length_cons, Memory.readFrom, hv]
    simp only [ih h]

/-- DCR's last line (R182); its end hides the FSM_STATE, STRETCH_WAIT and working values before it. -/
theorem endsFrom_decodeRaw {s : State} {ts : List Task} {h : Handler} {c d : LineState} {ds es : List Bool}
    {tr : List Action} {raw : List Byte} {f' : FsmState} {b' : Bool} {w' : Work} (hr : Ready s)
    (hraw : s.rxbuf.readFrom (rawLen s.work.opn.n) 0 = .ok raw) :
    EndsFrom s (.decodeRaw :: ts) h c d ds es tr
      (decoded (decodeWords s.work.opn.init raw) (later s f' b' w' c d ds es tr)) := by
  intro f b w hw
  have hline : runTask .decodeRaw ((later s f b w c d ds es tr).setTasks ts) =
      .next (decoded (decodeWords s.work.opn.init raw) ((later s f b w c d ds es tr).setTasks ts)) := by
    rw [← hw.opn] at hraw ⊢
    exact decodeAndFinish_eq (s := (later s f b w c d ds es tr).setTasks ts) hraw _
  refine ⟨{ w with tasks := [], handler := .none, biti := 0 }, rfl, rfl, rfl, ?_⟩
  refine reaches_of_eq (reaches_line (ready_later hr f b w c d ds es tr).toRunning hw.tasks hline) ?_
  cases decodeWords s.work.opn.init raw <;> rfl

/-- Settles O42: TX_WRITE of the command, the delay, TX_READ of 3n bytes, and their decoding. -/
theorem dcrWritesWaitsReadsAndDecodes : Obligations.DcrWritesWaitsReadsAndDecodes := by
  intro s a n data scl sda hb hn hi hp hw hraw _ hdata hscl hsda cmd u
  have hr : Ready (dcrBegun a n s) := ⟨⟨rfl, hn⟩, hp⟩
  have hcmd : Holds (dcrBegun a n s).txbuf 0 cmd := holds_writeFrom s.txbuf 0 cmd
  have hread : (stored (dcrBegun a n s) 0 data).rxbuf.readFrom (rawLen n) 0 = .ok data := by
    rw [rawLen, ← hdata]
    exact readFrom_of_holds (holds_writeFrom s.rxbuf 0 data)
  rw [replicate_add_append] at hscl
  rw [List.append_assoc] at hsda
  have hend : Ends (dcrBegun a n s) (decoded (decodeWords s.reg.crcInit data)
      (later (stored (dcrBegun a n s) 0 data) .idle false s.work .released .released scl sda
        ([] ++ writeTrace s.cur.half.toNat a cmd ++ [.slp s.reg.argDelay.toNat] ++
          readTrace s.cur.half.toNat a data))) := by
    refine EndsFrom.ends (dcrTasks_append _) hscl hsda ?_
    refine endsFrom_txWrite (data := cmd) hr rfl hcmd (endsFrom_fsm hr (endsFrom_sleepDelay hr ?_))
    exact endsFrom_txRead hr hdata rfl (endsFrom_decodeRaw (ready_stored hr ..) hread)
  obtain ⟨w, hts, hh, -, hend⟩ := hend
  refine ⟨_, exec_dcr hb hi hw hraw, w, hts, hh, fun ws hd => ?_, fun hd => ?_⟩
  all_goals
    rw [hd, later, stored, Nat.zero_add, hdata] at hend
    refine reaches_of_eq hend (eq_of_trace rfl ?_)
    simp [u, decoded, dcrBegun, State.dcrPrepare]

end Sys2Proof.Proofs
end

section
/-! No STOP fails (R204, R206): with both pins accepted an error is raised under CLEANUP only, and the STOP after it cannot
raise. -/

namespace Sys2Proof.Proofs

open Sys2Proof.Machine Sys2Proof.Safety

/-! ### What can make a STOP fail -/

/-- None of the lines sets a transaction's clause, sets a clause that reports ERR_PHASE = STOP or finishes with it. -/
def Plain (ts : List Task) : Prop := ts.any startsTransaction = false ∧ ts.all taskNotStop = true

theorem plain_nil : Plain [] := ⟨rfl, rfl⟩

theorem plain_cons {k : Task} {ts : List Task} :
    Plain (k :: ts) ↔ (startsTransaction k = false ∧ taskNotStop k = true) ∧ Plain ts := by
  simp only [Plain, List.any_cons, List.all_cons, Bool.or_eq_false_iff, Bool.and_eq_true]
  tauto

theorem MicroLines.plain {ts : List Task} (h : MicroLines ts) : Plain ts := by
  induction ts with
  | nil => exact plain_nil
  | cons k ts ih =>
    obtain ⟨hk, hts⟩ := microLines_cons.1 h
    refine plain_cons.2 ⟨?_, ih hts⟩
    cases k with
    | onErr h' | finish e ph d => cases hk
    | _ => exact ⟨rfl, rfl⟩

theorem Plain.append {ts us : List Task} (h : Plain ts) (h' : Plain us) : Plain (ts ++ us) := by
  simp only [Plain, List.any_append, List.all_append, h.1, h.2, h'.1, h'.2]
  decide

theorem Expands.plain {k : Task} {pre : List Task} (h : Expands k pre) : Plain pre := by
  cases h with
  | moveOn => exact plain_nil
  | wait | retry => exact ⟨rfl, rfl⟩
  | write j n b => exact (microLines_writeByte b).plain.append ⟨rfl, rfl⟩
  | read i n ack => exact (microLines_readByte ack).plain.append ⟨rfl, rfl⟩

theorem txWrite_taskNotStop (a : Addr) (n : Nat) : (txWrite a n).all taskNotStop = true := by
  simp [txWrite, taskNotStop, phaseNotStop, microLines_start.plain.2, microLines_stop.plain.2,
    (microLines_writeByte _).plain.2]

theorem txRead_taskNotStop (a : Addr) (n : Nat) : (txRead a n).all taskNotStop = true := by
  simp [txRead, taskNotStop, phaseNotStop, microLines_start.plain.2, microLines_stop.plain.2,
    (microLines_writeByte _).plain.2]

theorem IsCommandLines.taskNotStop {ts : List Task} (h : IsCommandLines ts) : ts.all Safety.taskNotStop = true := by
  obtain rfl | ⟨c, rfl⟩ | ⟨o, rfl⟩ | ⟨o, rfl⟩ | ⟨o, rfl⟩ := h
  · rfl
  · cases c <;> rfl
  · simp [writeTasks, txWrite_taskNotStop, Safety.taskNotStop]
  · simp [readTasks, txRead_taskNotStop, Safety.taskNotStop]
  · simp [dcrTasks, txWrite_taskNotStop, txRead_taskNotStop, Safety.taskNotStop]

/-! ### Commands -/

theorem pinsInv_of_stopped {s t : State} (hb : SameBus s t) (ht : Stopped t) (hs : PinsInv s) : PinsInv t :=
  pinsInv_of_sameBus hb (by simp [ht.1, ending]) hs

theorem pinsInv_of_uninitialized {t : State} (hi : t.st.initialized = false) (ht : Stopped t) : PinsInv t :=
  (busInv_of_uninitialized hi ht).1

theorem pinsInv_of_begins {s t : State} (hb : SameBus s t) (hl : IsCommandLines t.work.tasks) (hs : PinsInv s) :
    PinsInv t := by
  by_cases he : ending t.work.tasks = some .initDone
  · exact pinsInv_of_initTasks hb (hl.eq_initTasks he) hs
  · exact pinsInv_of_sameBus hb he hs

/-- With no command in progress nothing is left that could make a STOP fail. -/
theorem stopInv_of_stopped {t : State} (hp : PinsInv t) (ht : Stopped t) (hf : t.st.stopFail = false)
    (hph : t.st.errPhase ≠ .stop) : StopInv t := by
  obtain ⟨hts, hh⟩ := ht
  refine ⟨hp, ?_, fun h => ?_, hf, hph, ?_, ?_⟩ <;> rw [hts] at * <;> rw [hh] at *
  · rfl
  · obtain h | h := h <;> cases h
  · rfl
  · rfl

/-- Acceptance clears STOP_FAIL and ERR_PHASE (R140). -/
theorem exec_clearsErr {i : Instr} {s t : State} (h : exec i s = .next t) :
    t.st.stopFail = false ∧ t.st.errPhase = .none := by
  obtain ⟨-, ⟨-, rfl⟩ | ⟨-, h⟩⟩ := exec_table_cases h
  · exact ⟨rfl, rfl⟩
  cases i with
  | configure => obtain ⟨-, rfl⟩ | ⟨-, rfl⟩ := runConfigure_cases h <;> exact ⟨rfl, rfl⟩
  | crc8 n => obtain ⟨v, rfl⟩ := runCrc8_cases h; exact ⟨rfl, rfl⟩
  | encode n => obtain ⟨bs, v, -, rfl⟩ := runEncode_cases h; exact ⟨rfl, rfl⟩
  | decode n => obtain ⟨raw, -, ⟨-, rfl⟩ | ⟨ws, -, -, rfl⟩⟩ := State.decodeAndFinish_cases h <;> exact ⟨rfl, rfl⟩
  | init | release | write a n | read a n | dcr a n => cases h; exact ⟨rfl, rfl⟩

/-- Only an INITIALIZED block begins a transaction (R142). -/
theorem initialized_of_exec_startsTransaction {i : Instr} {s t : State} (h : exec i s = .next t)
    (hany : t.work.tasks.any startsTransaction = true) : s.st.initialized = true := by
  obtain ⟨-, ⟨-, rfl⟩ | ⟨hr, h⟩⟩ := exec_table_cases h
  · cases hany
  cases i with
  | configure => obtain ⟨-, rfl⟩ | ⟨-, rfl⟩ := runConfigure_cases h <;> cases hany
  | crc8 n => obtain ⟨v, rfl⟩ := runCrc8_cases h; cases hany
  | encode n => obtain ⟨bs, v, -, rfl⟩ := runEncode_cases h; cases hany
  | decode n => obtain ⟨raw, -, ⟨-, rfl⟩ | ⟨ws, -, -, rfl⟩⟩ := State.decodeAndFinish_cases h <;> cases hany
  | init => cases h; cases hany
  | release =>
    cases h
    have hnone : (releaseTasks (acceptedBy .release s).st.configured).any startsTransaction = false := by
      cases (acceptedBy .release s).st.configured <;> rfl
    exact absurd hany (by simpa using hnone)
  | write a n | read a n | dcr a n => exact Bool.of_not_eq_false fun hi => hr (.inl hi)

theorem exec_stopInv {i : Instr} {s t : State} (h : exec i s = .next t) (hs : PinsInv s) : StopInv t := by
  obtain ⟨hf, hph⟩ := exec_clearsErr h
  have hph' : t.st.errPhase ≠ .stop := by simp [hph]
  obtain ⟨-, ⟨hb, hst | ⟨hl, hh⟩⟩ | ⟨-, hi, hst⟩⟩ := exec_sameBus h
  · exact stopInv_of_stopped (pinsInv_of_stopped hb hst hs) hst hf hph'
  · refine ⟨pinsInv_of_begins hb hl hs, by rw [hh]; exact hl.guarded, fun ht => ?_, hf, hph', by rw [hh]; rfl,
      hl.taskNotStop⟩
    rw [hh] at ht
    exact hb.pinsValid (hs.1 (initialized_of_exec_startsTransaction h (ht.resolve_left nofun)))
  · exact stopInv_of_stopped (pinsInv_of_uninitialized hi hst) hst hf hph'

theorem runHostOp_stopInv {o : HostOp} {s t : State} (h : runHostOp o s = .next t) (hs : StopInv s) : StopInv t := by
  obtain ⟨w, -, hw⟩ | ⟨-, rfl⟩ | ⟨reg, tx, rx, wb, host, peers, fresh, rfl⟩ := runHostOp_cases h
  · have hpins : PinsInv s.nextStmt := hs.1
    obtain ⟨-, rfl⟩ | ⟨i, hi⟩ := issueWord_cases hw
    · have hst : Stopped s.nextStmt.turnedAway := stopped_finish ..
      exact stopInv_of_stopped (pinsInv_of_stopped (s := s.nextStmt) ⟨rfl, rfl, rfl, rfl, rfl⟩ hst hpins) hst rfl nofun
    · exact exec_stopInv hi hpins
  · exact stopInv_of_stopped (pinsInv_of_uninitialized rfl ⟨rfl, rfl⟩) ⟨rfl, rfl⟩ rfl nofun
  · exact hs

/-! ### Lines -/

/-- CLEANUP reports the phase of its clause, which is not STOP, and its STOP cannot raise with both pins accepted (R205). -/
theorem raise_stopInv {s u : State} (hb : SameBus s u) (hs : PinsInv s) (hf : u.st.stopFail = false)
    (hph : u.st.errPhase ≠ .stop) (hn : phaseNotStop u.work.handler = true)
    (hc : inTransaction u.work.handler = true → PinsValid s ∧ isCleanup u.work.handler = true) (e : ErrCode) :
    StopInv (u.raise e) := by
  obtain ⟨e', ph', dir', he⟩ := ending_raise u e
  have hpins : PinsInv (u.raise e) := pinsInv_of_sameBus (hb.trans (sameBus_raise u e)) (by simp [he]) hs
  refine ⟨hpins, guarded_raise u e, ?_⟩
  obtain ⟨-, h⟩ | ⟨ph, dir, hh, h⟩ | ⟨dir, hh, -⟩ | ⟨e0, ph, dir, hh, -⟩ := u.raise_cases e
  · rw [h]
    exact ⟨fun ht => ht.elim nofun nofun, hf, hph, rfl, rfl⟩
  · rw [hh] at hc hn
    have hvalid : PinsValid (u.raise e) := (hb.trans (sameBus_raise u e)).pinsValid (hc rfl).1
    refine ⟨fun _ => hvalid, ?_⟩
    rw [h]
    exact ⟨hf, hph, hn, by simpa [microLines_stop.plain.2, taskNotStop, phaseNotStop] using hn⟩
  · rw [hh] at hc
    cases (hc rfl).2
  · rw [hh] at hc
    cases (hc rfl).2

/-- In a transaction of accepted pins only CLEANUP's clause is in force where an error is raised (R204). -/
theorem raises_stopInv {k : Task} {ts : List Task} {s t : State} (hts : s.work.tasks = k :: ts)
    (h : raises k (s.setTasks ts) t) (hs : StopInv s) : StopInv t := by
  obtain ⟨hpins, hg, hv, hf, hph, hn, -⟩ := hs
  have hcleanup (hin : inTransaction s.work.handler = true) : PinsValid s ∧ isCleanup s.work.handler = true := by
    have hvalid : PinsValid s := hv (.inl hin)
    have hk : mayRaise k = true := mayRaise_of_raises h hvalid
    rw [hts, guarded_cons, hk] at hg
    exact ⟨hvalid, by simpa using (Bool.and_eq_true_iff.1 hg).1⟩
  obtain ⟨e, b, env, fresh, as, rfl, -⟩ := h
  refine raise_stopInv (s := s) ?_ hpins ?_ ?_ ?_ ?_ e
  · exact ⟨rfl, rfl, rfl, rfl, rfl⟩
  · exact hf
  · exact hph
  · exact hn
  · exact hcleanup

/-- A line that does not raise leaves STOP_FAIL alone, and writes ERR_PHASE only where it finishes the command. -/
theorem runs_errFields {k : Task} {s t : State} (h : runs k s t) (hk : taskNotStop k = true)
    (hph : s.st.errPhase ≠ .stop) : t.st.stopFail = s.st.stopFail ∧ t.st.errPhase ≠ .stop := by
  cases k with
  | pullup l => obtain ⟨-, rfl⟩ := h; cases l <;> exact ⟨rfl, hph⟩
  | low l => obtain ⟨-, rfl⟩ := h; cases l <;> exact ⟨rfl, hph⟩
  | reset l => cases h; cases l <;> exact ⟨rfl, hph⟩
  | poll => obtain ⟨-, env, fresh, ⟨-, rfl⟩ | ⟨-, -, rfl⟩⟩ := h <;> exact ⟨rfl, hph⟩
  | sampleAck => obtain ⟨-, a, env, fresh, -, rfl⟩ := h; exact ⟨rfl, hph⟩
  | sampleBit i => obtain ⟨-, d, env, fresh, -, rfl⟩ := h; exact ⟨rfl, hph⟩
  | checkAck => obtain ⟨-, rfl⟩ := h; exact ⟨rfl, hph⟩
  | writeData j n => obtain ⟨-, rfl⟩ | ⟨-, b, -, rfl⟩ := h <;> exact ⟨rfl, hph⟩
  | readData i n => obtain ⟨-, rfl⟩ | ⟨-, rfl⟩ := h <;> exact ⟨rfl, hph⟩
  | initDone => obtain ⟨-, rfl⟩ := h; exact ⟨rfl, nofun⟩
  | releaseDone => cases h; exact ⟨rfl, nofun⟩
  | decodeRaw => obtain ⟨raw, -, ⟨-, rfl⟩ | ⟨ws, -, -, rfl⟩⟩ := h <;> exact ⟨rfl, nofun⟩
  | finish e ph d => cases h; exact ⟨rfl, of_decide_eq_true hk⟩
  | _ => cases h; exact ⟨rfl, hph⟩

/-- A line that ends the command leaves an INITIALIZED block with both pins accepted: INIT has tried them (R145). -/
theorem ends_pinsInv {k : Task} {ts : List Task} {s t : State} (hk : endsCommand k = true)
    (hts : s.work.tasks = k :: ts) (h : runs k (s.setTasks ts) t) (hs : PinsInv s) : PinsInv t := by
  have hst : Stopped t := stopped_of_runs hk h
  cases k with
  | initDone =>
    obtain ⟨-, rfl⟩ := h
    obtain ⟨hc, hd⟩ := hs.2 (by rw [hts]; rfl)
    have hvalid : PinsValid s := by simpa [hts, willPull, endsCommand, PinsValid] using And.intro hc hd
    exact pinsInv_of_stopped (s := s.setInitialized true) ⟨rfl, rfl, rfl, rfl, rfl⟩ hst ⟨fun _ => hvalid, hs.2⟩
  | releaseDone => cases h; exact pinsInv_of_uninitialized rfl hst
  | finish e ph d => cases h; exact pinsInv_of_stopped (s := s) ⟨rfl, rfl, rfl, rfl, rfl⟩ hst hs
  | decodeRaw =>
    obtain ⟨raw, -, ⟨-, rfl⟩ | ⟨ws, -, -, rfl⟩⟩ := h <;>
      exact pinsInv_of_stopped (s := s) ⟨rfl, rfl, rfl, rfl, rfl⟩ hst hs
  | _ => cases hk

/-- A clause set by a line was announced by the line: in a transaction after it, in one, or on the way to one, before. -/
theorem clauseBy_inTransaction {h : Handler} {k : Task} (hin : inTransaction (clauseBy h k) = true) :
    inTransaction h = true ∨ startsTransaction k = true := by
  cases k with
  | onErr h' => exact .inr hin
  | _ => exact .inl hin

theorem clauseBy_phaseNotStop {h : Handler} {k : Task} (hh : phaseNotStop h = true) (hk : taskNotStop k = true) :
    phaseNotStop (clauseBy h k) = true := by
  cases k with
  | onErr h' => exact hk
  | _ => exact hh

theorem Continues.stopInv {k : Task} {pre ts : List Task} {s t : State} (hk : endsCommand k = false)
    (hts : s.work.tasks = k :: ts) (hc : Continues k pre (s.setTasks ts) t) (hf : t.st.stopFail = false)
    (hph : t.st.errPhase ≠ .stop) (hs : StopInv s) : StopInv t := by
  obtain ⟨hpins, hg, hv, -, -, hh, hn⟩ := hs
  rw [hts] at hg hv hn
  obtain ⟨hkn, htsn⟩ : taskNotStop k = true ∧ ts.all taskNotStop = true := by simpa using hn
  obtain ⟨hpreAny, hpreAll⟩ := hc.expands.plain
  have hhandler : t.work.handler = clauseBy s.work.handler k := hc.handler
  have htasks : t.work.tasks = pre ++ ts := hc.tasks
  refine ⟨hc.pinsInv hk hts hpins, ?_, fun hin => ?_, hf, hph, ?_, ?_⟩
  · rw [hhandler, htasks]
    exact hc.expands.guarded hg
  · have hbefore : inTransaction s.work.handler = true ∨ (k :: ts).any startsTransaction = true := by
      rw [List.any_cons, Bool.or_eq_true]
      obtain hin | hin := hin
      · exact (clauseBy_inTransaction (hhandler ▸ hin)).imp_right .inl
      · rw [htasks, List.any_append, hpreAny, Bool.false_or] at hin
        exact .inr (.inr hin)
    exact ⟨(hc.pinOk .scl).trans (hv hbefore).1, (hc.pinOk .sda).trans (hv hbefore).2⟩
  · rw [hhandler]
    exact clauseBy_phaseNotStop hh hkn
  · rw [htasks, List.all_append, hpreAll, htsn]
    rfl

theorem runTask_stopInv {k : Task} {ts : List Task} {s t : State} (hts : s.work.tasks = k :: ts)
    (h : runTask k (s.setTasks ts) = .next t) (hs : StopInv s) : StopInv t := by
  obtain hr | hr := runTask_cases h
  · exact raises_stopInv hts hr hs
  have ⟨hpins, _, _, hf, hph, _, hn⟩ := hs
  have hkn : taskNotStop k = true := by
    rw [hts, List.all_cons] at hn
    exact (Bool.and_eq_true_iff.1 hn).1
  obtain ⟨hft, hpht⟩ := runs_errFields hr hkn hph
  cases hk : endsCommand k with
  | true => exact stopInv_of_stopped (ends_pinsInv hk hts hr hpins) (stopped_of_runs hk hr) (hft.trans hf) hpht
  | false =>
    obtain ⟨pre, hc⟩ := continues_of_runs hk hr
    exact hc.stopInv hk hts (hft.trans hf) hpht hs

/-- Settles O55: with both pins accepted, which INITIALIZED = 1 guarantees, only a line under CLEANUP raises in a
transaction, and its STOP has no line that could. -/
theorem stepKeepsStopsSucceeding : Obligations.StepKeepsStopsSucceeding := fun _ _ hs h =>
  step_keeps (fun _ _ _ => id) (fun _ _ _ _ _ hts => runTask_stopInv hts) (fun _ _ _ => runHostOp_stopInv) h hs

end Sys2Proof.Proofs
end

section
/-! The cleanup STOP (R112, R205, R206): from whatever line states remain, whether or not it succeeds. -/

namespace Sys2Proof.Proofs

open Sys2Proof.Machine Sys2Proof.Safety

section
variable {s : State} {ts : List Task} {ph : Phase} {dir : Dir}

theorem raise_of_cleanup (hh : s.work.handler = .cleanup ph dir) (e : ErrCode) :
    s.raise e = s.goTo (stop ++ [.finish e ph dir]) (.cleaning e ph dir) := by
  simp only [State.raise, hh]

/-- An error reported with STOP_FAIL given, and a phase that has a direction (R158, R206). -/
theorem failedStatus_eq (st : Status) (e : ErrCode) (hph : ph ≠ .none) (dir : Dir) (scl sda : LineState) (f : Bool) :
    { failedStatus st e ph dir scl sda with stopFail := f } =
      { st with
        busy := false, errCode := e, errPhase := ph, errDir := finishDir ph dir, stopFail := f, stretchWait := false,
        fsm := .idle, scl := scl, sda := sda } := by
  rw [finishDir_of_ne hph]
  rfl

/-- A refused pin makes the cleanup STOP fail, and the original error is reported (R206). -/
theorem reaches_cleaning_refused {l : Line} {e : ErrCode} (hr : Running s)
    (hts : s.work.tasks = .pullup l :: ts ∨ s.work.tasks = .low l :: ts) (hp : s.pinOk l = false)
    (hh : s.work.handler = .cleaning e ph dir) : Reaches s (s.setStopFail.finish e ph dir) := by
  obtain ⟨-, -, hrefused, -⟩ := pinActionsDoWhatTheRulesSay s l ts
  have hraise : (s.setTasks ts).raise .invalidPin = s.setStopFail.goTo [.finish e ph dir] .none := by
    simp only [State.raise, State.setTasks_work, hh]
    rfl
  have hstep : step s = .next (s.setStopFail.goTo [.finish e ph dir] .none) := by
    rw [step_sequencer hr.busy hr.hostDone, hrefused hts hp, hraise]
  exact reaches_trans ⟨1, run_step hstep⟩ (reaches_line ⟨hr.busy, hr.hostDone⟩ rfl rfl)

/-- A pull-down of an accepted pin (R102). -/
theorem reaches_low {l : Line} (hr : Running s) (hts : s.work.tasks = .low l :: ts) (hp : s.pinOk l = true) :
    Reaches s (((s.setTasks ts).setLine l .drivenLow).act (.lo l)) := by
  obtain ⟨-, haccepted, -⟩ := pinActionsDoWhatTheRulesSay s l ts
  exact ⟨1, run_step ((step_sequencer hr.busy hr.hostDone).trans (haccepted hts hp))⟩

end

/-- Settles O43: STOP runs to its end, or to its first line on a refused pin. -/
theorem errorInATransactionRunsCleanupStop : Obligations.ErrorInATransactionRunsCleanupStop := by
  intro s e ph dir hb hn hh hph
  rw [raise_of_cleanup hh, failedStatus_eq _ _ hph, failedStatus_eq _ _ hph, failedStatus_eq _ _ hph]
  refine ⟨fun hp => ?_, fun hsda => ?_, fun hsda hscl => ?_⟩
  · exact reaches_trans (reaches_stop ⟨⟨hb, hn⟩, hp⟩ rfl) (reaches_line ⟨hb, hn⟩ rfl rfl)
  · refine reaches_trans (reaches_line ⟨hb, hn⟩ rfl rfl) ?_
    exact reaches_cleaning_refused ⟨hb, hn⟩ (.inr rfl) hsda rfl
  · refine reaches_trans (reaches_line ⟨hb, hn⟩ rfl rfl) ?_
    refine reaches_trans (reaches_low ⟨hb, hn⟩ rfl hsda) ?_
    refine reaches_trans (reaches_line ⟨hb, hn⟩ rfl rfl) ?_
    refine reaches_of_eq (reaches_cleaning_refused ⟨hb, hn⟩ (.inl rfl) hscl rfl) (eq_of_trace rfl ?_)
    simp [State.sleep]

end Sys2Proof.Proofs
end

section
/-! Shared pins (R3, R145, R218): INIT's last line, a peer's INIT and release, and what every step keeps (logs 12 and 13).
A peer is another INITIALIZED block. -/

namespace Sys2Proof.Proofs

open Sys2Proof.Machine Sys2Proof.Safety

/-! ### This block's INIT -/

theorem reachesFault_of_reaches {s t : State} {f : Fault} (h : Reaches s t) (h' : ReachesFault t f) :
    ReachesFault s f := by
  obtain ⟨j, hj⟩ := h
  obtain ⟨k, hk⟩ := h'
  exact ⟨j + k, run_add hj hk⟩

theorem run_one_fault {s : State} {f : Fault} (h : step s = .fault f) : Host.Core.run core 1 s = .fault f := by
  rw [run_succ, h]
  rfl

/-- INIT's end when a peer holds a pin of this block (R218). -/
theorem reachesFault_initDone {s : State} {ts : List Task} (hr : Running s) (hts : s.work.tasks = .initDone :: ts)
    (hp : ∃ p ∈ s.peers, commonPin p.scl p.sda s.cur.sclPin s.cur.sdaPin) : ReachesFault s .sharedPins := by
  obtain ⟨p, hmem, hp⟩ := hp
  have hshares : (s.setTasks ts).peers.any (s.setTasks ts).sharesWith = true :=
    List.any_eq_true.2 ⟨p, hmem, State.sharesWith_iff.2 hp⟩
  refine ⟨1, run_one_fault ?_⟩
  rw [step_sequencer hr.busy hr.hostDone, seqStep_cons hts, runTask, runInitDone, hshares]
  rfl

/-! ### A peer's INIT and release -/

theorem commonPin_comm {a b c d : PinId} : commonPin a b c d ↔ commonPin c d a b := by
  simp only [commonPin, @eq_comm _ c, @eq_comm _ d]
  tauto

/-- The peer p has a pin in common with this block, while INITIALIZED, or with a listed peer of another number (R218). -/
def PeerClashes (s : State) (p : Peer) : Prop :=
  (s.st.initialized = true ∧ commonPin p.scl p.sda s.cur.sclPin s.cur.sdaPin) ∨
  ∃ q ∈ s.peers, q.id ≠ p.id ∧ commonPin p.scl p.sda q.scl q.sda

/-- The check of a peer's INIT. -/
theorem peerInit_check_iff (s : State) (k : Nat) (scl sda : PinId) :
    (s.st.initialized && s.sharesWith (s.peerOf k scl sda) ||
      s.peers.any (fun q => q.id != k && q.shares (s.peerOf k scl sda))) = true ↔
    PeerClashes s (s.peerOf k scl sda) := by
  simp only [PeerClashes, Bool.or_eq_true, Bool.and_eq_true, List.any_eq_true, bne_iff_ne, State.sharesWith_iff,
    Peer.shares_iff, State.peerOf_id]
  refine or_congr Iff.rfl (exists_congr fun q => and_congr_right fun _ => and_congr_right fun _ => commonPin_comm)

theorem peerInit_clashes {s : State} {k : Nat} {scl sda : PinId} (h : PeerClashes s (s.peerOf k scl sda)) :
    peerInit k scl sda s = .fault .sharedPins := if_pos ((peerInit_check_iff ..).2 h)

theorem peerInit_free {s : State} {k : Nat} {scl sda : PinId} (h : ¬ PeerClashes s (s.peerOf k scl sda)) :
    peerInit k scl sda s = .next (s.addPeer (s.peerOf k scl sda)) := if_neg (mt (peerInit_check_iff ..).1 h)

/-- The INIT of a peer that is not listed (R218). -/
theorem peerInit_unlisted {s : State} {k : Nat} {scl sda : PinId} (hk : ∀ p ∈ s.peers, p.id ≠ k) :
    peerInit k scl sda s =
      if s.st.initialized = true ∧ commonPin scl sda s.cur.sclPin s.cur.sdaPin ∨
          ∃ p ∈ s.peers, commonPin scl sda p.scl p.sda then .fault .sharedPins
      else .next { s with peers := { id := k, scl := scl, sda := sda } :: s.peers } := by
  have hclash : PeerClashes s (s.peerOf k scl sda) ↔
      s.st.initialized = true ∧ commonPin scl sda s.cur.sclPin s.cur.sdaPin ∨
        ∃ p ∈ s.peers, commonPin scl sda p.scl p.sda := by
    rw [State.peerOf_of_not_mem hk]
    exact or_congr Iff.rfl (exists_congr fun q => and_congr_right fun hq => and_iff_right (hk q hq))
  split_ifs with h
  · exact peerInit_clashes (hclash.2 h)
  · rw [peerInit_free (mt hclash.1 h), State.peerOf_of_not_mem hk, State.addPeer_of_not_mem hk]

/-- Two peers are told apart and have no pin in common. -/
def PeersApart (p q : Peer) : Prop := p.id ≠ q.id ∧ ¬ commonPin p.scl p.sda q.scl q.sda

theorem peersApart_of_mem {s : State} (hs : PeersInv s) {p q : Peer} (hp : p ∈ s.peers) (hq : q ∈ s.peers)
    (hne : p ≠ q) : PeersApart p q :=
  have hpairs : s.peers.Pairwise PeersApart := hs.1
  have : Std.Symm PeersApart := ⟨fun _ _ ⟨hid, hpins⟩ => ⟨hid.symm, mt commonPin_comm.1 hpins⟩⟩
  hpairs.forall hp hq hne

/-- A listed peer is found with the pins it holds. -/
theorem peerOf_of_mem {s : State} (hs : PeersInv s) {p : Peer} (hp : p ∈ s.peers) (scl sda : PinId) :
    s.peerOf p.id scl sda = p := by
  unfold State.peerOf
  cases hf : s.peers.find? fun q => q.id == p.id with
  | none => exact absurd (beq_self_eq_true p.id) (List.find?_eq_none.1 hf p hp)
  | some q =>
    have hid : q.id = p.id := by simpa using List.find?_some hf
    by_contra hne
    exact (peersApart_of_mem hs (List.mem_of_find?_eq_some hf) hp hne).1 hid

/-- A listed peer has no pin in common with another listed one, nor with this block while INITIALIZED. -/
theorem not_peerClashes_of_mem {s : State} (hs : PeersInv s) {p : Peer} (hp : p ∈ s.peers) : ¬ PeerClashes s p := by
  rintro (⟨hi, hc⟩ | ⟨q, hq, hid, hc⟩)
  · exact hs.2 hi p hp hc
  · have hne : p ≠ q := by
      rintro rfl
      exact hid rfl
    exact (peersApart_of_mem hs hp hq hne).2 hc

/-- The INIT of a listed peer changes nothing (R145). -/
theorem peerInit_listed {s : State} (hs : PeersInv s) {p : Peer} (hp : p ∈ s.peers) (scl sda : PinId) :
    peerInit p.id scl sda s = .next s := by
  have hof := peerOf_of_mem hs hp scl sda
  rw [peerInit_free (by rw [hof]; exact not_peerClashes_of_mem hs hp), hof, State.addPeer_of_mem hp rfl]

/-! ### What every step keeps -/

/-- Fewer peers share no more pins. -/
theorem peersInv_of_sublist {s t : State} (hp : t.peers.Sublist s.peers)
    (hi : t.st.initialized = true → s.st.initialized = true ∧ t.cur = s.cur) (hs : PeersInv s) : PeersInv t := by
  refine ⟨hs.1.sublist hp, fun ht p hmem => ?_⟩
  obtain ⟨hi, hc⟩ := hi ht
  rw [hc]
  exact hs.2 hi p (hp.subset hmem)

theorem runTask_peersInv {k : Task} {ts : List Task} {s t : State} (h : runTask k (s.setTasks ts) = .next t)
    (hs : PeersInv s) : PeersInv t := by
  obtain ⟨hcur, -⟩ := runTask_writes h
  obtain ⟨-, hpeers, -, hinit⟩ := runTask_marks h
  by_cases hk : k = .initDone
  · subst hk
    simp only [runTask, runInitDone] at h
    split_ifs at h with hshares
    cases h
    exact ⟨hs.1, fun _ p hp hc => hshares (List.any_eq_true.2 ⟨p, hp, State.sharesWith_iff.2 hc⟩)⟩
  · refine peersInv_of_sublist (s := s) (by rw [hpeers]; exact List.Sublist.refl _) (fun ht => ⟨?_, hcur⟩) hs
    by_cases hr : k = .releaseDone
    · subst hr
      cases h
      cases ht
    · exact (hinit hk hr).symm.trans ht

/-- Only a peer's INIT and release change the list of peers. -/
theorem runHostOp_peers {o : HostOp} {s t : State} (h : runHostOp o s = .next t) :
    t.peers = s.peers ∨ (∃ k scl sda, o = .peerInit k scl sda) ∨ ∃ k, o = .peerRelease k := by
  cases o with
  | peerInit k scl sda => exact .inr (.inl ⟨k, scl, sda, rfl⟩)
  | peerRelease k => exact .inr (.inr ⟨k, rfl⟩)
  | wr n v =>
    left
    simp only [runHostOp, regWrite] at h
    split_ifs at h
    · obtain ⟨-, rfl⟩ | ⟨i, hi⟩ := issueWord_cases h
      · rfl
      · rw [exec_leavesRest hi]
        rfl
    · cases h
      rfl
  | bw b i v =>
    left
    obtain ⟨-, rfl | ⟨-, rfl⟩⟩ := bufWrite_cases h
    · rfl
    · exact State.putElement_peers ..
  | br b i x => obtain ⟨v, fresh, rfl⟩ := bufRead_cases h; exact .inl rfl
  | branch x hi lo eq v k =>
    left
    simp only [runHostOp] at h
    cases h
    split <;> rfl
  | rd n x | goto k | halt | reset => cases h; exact .inl rfl

theorem peerInit_peersInv {k : Nat} {scl sda : PinId} {s t : State} (h : peerInit k scl sda s = .next t)
    (hs : PeersInv s) : PeersInv t := by
  by_cases hk : ∃ p ∈ s.peers, p.id = k
  · obtain ⟨p, hp, rfl⟩ := hk
    rw [peerInit_listed hs hp] at h
    cases h
    exact hs
  · push Not at hk
    rw [peerInit_unlisted hk] at h
    split_ifs at h with hclash
    cases h
    obtain ⟨hthis, hothers⟩ := not_or.1 hclash
    refine ⟨List.pairwise_cons.2 ⟨fun q hq => ⟨(hk q hq).symm, fun hc => hothers ⟨q, hq, hc⟩⟩, hs.1⟩, fun hi q hq => ?_⟩
    obtain rfl | hq := List.mem_cons.1 hq
    · exact fun hc => hthis ⟨hi, hc⟩
    · exact hs.2 hi q hq

theorem runHostOp_peersInv {o : HostOp} {s t : State} (h : runHostOp o s = .next t) (hs : PeersInv s) : PeersInv t := by
  obtain hp | ⟨k, scl, sda, rfl⟩ | ⟨k, rfl⟩ := runHostOp_peers h
  · refine peersInv_of_sublist (by rw [hp]) (fun hi => ?_) hs
    obtain ⟨hb, -⟩ | ⟨-, hb, -⟩ | ⟨hi', -⟩ := runHostOp_sameBus h
    · exact ⟨hb.initialized.symm.trans hi, hb.cur⟩
    · exact ⟨hb.initialized.symm.trans hi, hb.cur⟩
    · simp [hi'] at hi
  · exact peerInit_peersInv h hs
  · cases h
    exact peersInv_of_sublist (s := s) List.filter_sublist (fun hi => ⟨hi, rfl⟩) hs

/-- Settles O31: the fault at either INIT's check, and the checks keep the list free of shared pins. -/
theorem initializedInstancesNeverShareAPin : Obligations.InitializedInstancesNeverShareAPin := by
  refine ⟨fun s hb hn hc hp hshared => ⟨_, exec_init hb hc, ?_⟩, fun s k scl sda hk => peerInit_unlisted hk,
    fun s p scl sda hs hp => peerInit_listed (s := s.nextStmt) hs hp scl sda, fun s k => ⟨_, rfl, rfl, fun p => ?_⟩,
    fun s t hs h => ?_⟩
  · refine reachesFault_of_reaches (reaches_initPulls hn) ?_
    refine reachesFault_of_reaches
      (reaches_pinLines (ks := [.pullup .scl, .pullup .sda]) ⟨initPulls_running hn, hp⟩ rfl rfl) ?_
    exact reachesFault_initDone ⟨rfl, hn⟩ rfl hshared
  · simp [State.peerRelease, State.nextStmt, State.jump]
  · exact step_keeps (fun _ _ _ => id) (fun _ _ _ _ _ _ => runTask_peersInv) (fun _ _ _ => runHostOp_peersInv) h hs

end Sys2Proof.Proofs
end

section
/-! Every command ends (R210): each line of the pseudocode lowers the bound on the steps that are left, ends the command or
faults (log 5). -/

namespace Sys2Proof.Proofs

open Sys2Proof.Machine Sys2Proof.Safety

/-! ### The cost of lines -/

theorem one_le_taskCost (k : Task) : 1 ≤ taskCost k := by
  cases k with
  | waitHigh | poll => decide
  | _ => simp [taskCost]

@[simp] theorem tasksCost_nil : tasksCost [] = 0 := rfl

@[simp] theorem tasksCost_cons (k : Task) (ts : List Task) : tasksCost (k :: ts) = taskCost k + tasksCost ts := rfl

@[simp] theorem tasksCost_append (ts us : List Task) : tasksCost (ts ++ us) = tasksCost ts + tasksCost us := by
  simp [tasksCost]

theorem tasksCost_writeBit (b : Byte) (i : BitVec 3) : tasksCost (writeBit b i) = 522 := by
  unfold writeBit sdaTo
  cases b.getLsbD i.toNat <;> rfl

theorem tasksCost_writeByte (b : Byte) : tasksCost (writeByte b) = 4703 := by
  have hack : tasksCost ackPhase = 527 := rfl
  simp [writeByte, bitsDown, tasksCost_writeBit, hack]

theorem tasksCost_readByte (ack : Bool) : tasksCost (readByte ack) = 4696 := by
  cases ack <;> rfl

/-! ### The cost of a position -/

/-- Outside WAIT_CLOCK_HIGH's loop the retries left do not count. -/
theorem positionCost_cons {k : Task} (hk : inWait k = false) (left : Byte) (ts : List Task) :
    positionCost left (k :: ts) = taskCost k + tasksCost ts := by
  cases k with
  | poll | retry => cases hk
  | _ => rfl

/-- The retries left are at most 255. -/
theorem positionCost_le (left : Byte) (ts : List Task) : positionCost left ts ≤ tasksCost ts := by
  unfold positionCost
  split
  case h_3 => exact le_rfl
  all_goals
    simp only [tasksCost_cons, taskCost]
    omega

theorem positionCost_retry (left : Byte) (ts : List Task) :
    positionCost (left - 1) ts < positionCost left (.retry :: ts) := by
  by_cases hts : ∃ r, ts = .poll :: r
  · obtain ⟨r, rfl⟩ := hts
    simp only [positionCost]
    omega
  · have hcost : positionCost left (.retry :: ts) = 1 + tasksCost ts := by
      unfold positionCost
      split
      · next h => cases h
      · next r h => exact absurd ⟨r, (List.cons.inj h).2⟩ hts
      · rfl
    have hle := positionCost_le (left - 1) ts
    omega

theorem one_le_positionCost (left : Byte) (k : Task) (ts : List Task) : 1 ≤ positionCost left (k :: ts) := by
  cases hk : inWait k with
  | false =>
    rw [positionCost_cons hk]
    exact Nat.le_add_right_of_le (one_le_taskCost k)
  | true =>
    cases k with
    | poll => simp only [positionCost]; omega
    | retry => exact Nat.one_le_of_lt (positionCost_retry left ts)
    | _ => cases hk

/-! ### What a line leaves of the bound -/

/-- An error leaves CLEANUP's STOP and finish at most (R205). -/
theorem raise_stepsBound_le (s : State) (e : ErrCode) : stepsBound (s.raise e) ≤ 1 + handlerCost s.work.handler := by
  obtain ⟨-, h⟩ | ⟨ph, dir, hh, h⟩ | ⟨dir, -, h⟩ | ⟨e0, ph, dir, -, h⟩ := s.raise_cases e <;> rw [h]
  · exact Nat.le_add_right 1 _
  · rw [hh]
    exact le_rfl
  · exact Nat.le_add_right 1 _
  · exact Nat.le_add_right 1 _

/-- A line that can raise counts 2. -/
theorem two_le_positionCost_of_raises {k : Task} {s t : State} (h : raises k s t) (left : Byte) (ts : List Task) :
    2 ≤ positionCost left (k :: ts) := by
  obtain ⟨e, b, env, fresh, as, -, ⟨rfl, -⟩ | ⟨-, -, -, -, -, ⟨rfl, -⟩ | ⟨-, ⟨l, rfl | rfl, -⟩ | ⟨rfl | ⟨i, rfl⟩, -⟩⟩⟩⟩ := h
  · simp only [positionCost]
    omega
  all_goals exact Nat.le_add_right 2 _

theorem raises_stepsBound_lt {k : Task} {ts : List Task} {s t : State} (hts : s.work.tasks = k :: ts)
    (h : raises k (s.setTasks ts) t) : stepsBound t < stepsBound s := by
  have hcost : 2 ≤ positionCost s.work.retryLeft s.work.tasks := hts ▸ two_le_positionCost_of_raises h _ ts
  obtain ⟨e, b, env, fresh, as, rfl, -⟩ := h
  refine lt_of_le_of_lt (raise_stepsBound_le _ e) ?_
  show 1 + handlerCost s.work.handler < positionCost s.work.retryLeft s.work.tasks + handlerCost s.work.handler
  omega

/-- The lines that a line leads to, and the clause it sets, cost less than the line. -/
theorem Expands.cost_lt {k : Task} {pre : List Task} (h : Expands k pre) (hw : inWait k = false)
    (hb : byteLoop k = false) (c : Handler) :
    tasksCost pre + handlerCost (clauseBy c k) < taskCost k + handlerCost c := by
  cases h with
  | moveOn =>
    have hk := one_le_taskCost k
    cases k with
    | onErr h' => simp only [tasksCost_nil, clauseBy, taskCost]; omega
    | _ => simp only [tasksCost_nil, clauseBy]; omega
  | wait => simp only [tasksCost_cons, tasksCost_nil, clauseBy, taskCost]; omega
  | retry => cases hw
  | write j n b | read i n ack => cases hb

/-- The same of what a line is run into; the heads of the byte loops lead to one byte and to the rest of the loop. -/
theorem runs_cost_lt {k : Task} {s t : State} (hw : inWait k = false) (hk : endsCommand k = false) (h : runs k s t) :
    ∃ pre, t.work.tasks = pre ++ s.work.tasks ∧
      tasksCost pre + handlerCost t.work.handler < taskCost k + handlerCost s.work.handler := by
  cases hb : byteLoop k with
  | false =>
    obtain ⟨pre, hc⟩ := continues_of_runs hk h
    exact ⟨pre, hc.tasks, hc.handler ▸ hc.expands.cost_lt hw hb _⟩
  | true =>
    cases k with
    | writeData j n =>
      obtain ⟨-, rfl⟩ | ⟨hj, b, -, rfl⟩ := h
      · exact ⟨[], rfl, by simp only [tasksCost_nil, taskCost]; omega⟩
      · refine ⟨_, rfl, ?_⟩
        simp only [tasksCost_append, tasksCost_writeByte, tasksCost_cons, tasksCost_nil, taskCost, State.push_work,
          State.setByteIdx_work]
        omega
    | readData i n =>
      obtain ⟨-, rfl⟩ | ⟨hi, rfl⟩ := h
      · exact ⟨[], rfl, by simp only [tasksCost_nil, taskCost]; omega⟩
      · refine ⟨_, rfl, ?_⟩
        simp only [tasksCost_append, tasksCost_readByte, tasksCost_cons, tasksCost_nil, taskCost, State.push_work,
          State.setByteIdx_work]
        omega
    | _ => cases hb

/-- A poll of SCL that reads 0 takes one of the retries left (R106). -/
theorem runs_poll_stepsBound_lt {ts : List Task} {s t : State} (hts : s.work.tasks = .poll :: ts)
    (h : runs .poll (s.setTasks ts) t) : stepsBound t < stepsBound s := by
  have hs : stepsBound s = 2 + 2 * s.work.retryLeft.toNat + tasksCost ts + handlerCost s.work.handler := by
    rw [stepsBound, hts]
    rfl
  obtain ⟨-, env, fresh, ⟨-, rfl⟩ | ⟨-, hleft, rfl⟩⟩ := h
  · have hle := positionCost_le s.work.retryLeft ts
    calc _ = positionCost s.work.retryLeft ts + handlerCost s.work.handler := rfl
      _ < stepsBound s := by omega
  · have hleft : s.work.retryLeft ≠ 0 := hleft
    calc _ = 3 + 2 * (s.work.retryLeft - 1).toNat + tasksCost ts + handlerCost s.work.handler := rfl
      _ < stepsBound s := by bv_omega

theorem runs_stepsBound_lt {k : Task} {ts : List Task} {s t : State} (hts : s.work.tasks = k :: ts)
    (hk : endsCommand k = false) (h : runs k (s.setTasks ts) t) : stepsBound t < stepsBound s := by
  cases hw : inWait k with
  | false =>
    obtain ⟨pre, htasks, hlt⟩ := runs_cost_lt hw hk h
    have htasks : t.work.tasks = pre ++ ts := htasks
    have hlt : tasksCost pre + handlerCost t.work.handler < taskCost k + handlerCost s.work.handler := hlt
    have hle := positionCost_le t.work.retryLeft t.work.tasks
    rw [stepsBound, stepsBound, hts, positionCost_cons hw]
    rw [htasks, tasksCost_append] at hle
    rw [htasks]
    omega
  | true =>
    cases k with
    | poll => exact runs_poll_stepsBound_lt hts h
    | retry =>
      cases h
      have hlt := positionCost_retry s.work.retryLeft ts
      rw [stepsBound, stepsBound, hts]
      exact Nat.add_lt_add_right hlt _
    | _ => cases hw

/-! ### The end of a command -/

theorem orRaise_ne_refused (s : State) (x : Except ErrCode State) (r : Refusal) : orRaise s x ≠ .refused r := by
  cases x <;> nofun

/-- Every line of the pseudocode has a meaning. -/
theorem runTask_ne_refused (k : Task) (s : State) (r : Refusal) : runTask k s ≠ .refused r := by
  cases k with
  | pullup l | low l => exact orRaise_ne_refused _ _ _
  | poll =>
    simp only [runTask, runPoll]
    split
    · nofun
    · nofun
    · split <;> nofun
  | sampleAck =>
    simp only [runTask, runSampleAck]
    split <;> nofun
  | sampleBit i =>
    simp only [runTask, runSampleBit]
    split <;> nofun
  | checkAck =>
    simp only [runTask]
    split <;> nofun
  | writeData j n =>
    simp only [runTask, runWriteData]
    split
    · split <;> nofun
    · nofun
  | readData i n =>
    simp only [runTask, runReadData]
    split <;> nofun
  | initDone =>
    simp only [runTask, runInitDone]
    split <;> nofun
  | decodeRaw =>
    simp only [runTask, State.decodeAndFinish]
    split
    · nofun
    · split <;> nofun
  | _ => nofun

/-- A running command has a line to run. -/
theorem exists_line {s : State} (hp : PositionInv s) (hb : s.st.busy = true) : ∃ k ts, s.work.tasks = k :: ts := by
  obtain ⟨us, e, hend, -⟩ := hp.1 hb
  exact List.exists_cons_of_ne_nil (by simp [hend])

/-- A step of a running command faults, ends the command or lowers the bound. -/
theorem step_progress {s : State} (hp : PositionInv s) (hr : Running s) :
    (∃ f, step s = .fault f) ∨
    ∃ t, step s = .next t ∧ (t.st.busy = false ∨ Running t ∧ stepsBound t < stepsBound s) := by
  obtain ⟨k, ts, hts⟩ := exists_line hp hr.busy
  rw [step_sequencer hr.busy hr.hostDone, seqStep_cons hts]
  cases h : runTask k (s.setTasks ts) with
  | fault f => exact .inl ⟨f, rfl⟩
  | refused r => exact absurd h (runTask_ne_refused k _ r)
  | next t =>
    refine .inr ⟨t, rfl, ?_⟩
    obtain ⟨-, -, -, (hhost : t.host = s.host), -⟩ := runTask_writes h
    have hdone : HostDone t := by simpa only [HostDone, State.hostOp?, hhost] using hr.hostDone
    obtain h | h := runTask_cases h
    · exact .inr ⟨⟨(raises_position h).1.trans hr.busy, hdone⟩, raises_stepsBound_lt hts h⟩
    · obtain ⟨-, u, e, ph, d, rfl⟩ | ⟨hk, hb, -⟩ := movesPosition_of_runs h
      · exact .inl rfl
      · exact .inr ⟨⟨hb.trans hr.busy, hdone⟩, runs_stepsBound_lt hts hk h⟩

/-- Within n steps the command has ended or the model has faulted (R210). -/
def EndsWithin (n : Nat) (s : State) : Prop :=
  ∃ k ≤ n, (∃ t, Host.Core.run core k s = .next t ∧ t.st.busy = false) ∨ ∃ f, Host.Core.run core k s = .fault f

theorem endsWithin_of_idle {s : State} (h : s.st.busy = false) (n : Nat) : EndsWithin n s :=
  ⟨0, n.zero_le, .inl ⟨s, rfl, h⟩⟩

theorem endsWithin_of_fault {s : State} {f : Fault} (h : step s = .fault f) (n : Nat) : EndsWithin (n + 1) s :=
  ⟨1, Nat.le_add_left 1 n, .inr ⟨f, run_one_fault h⟩⟩

theorem endsWithin_of_step {s t : State} {n : Nat} (h : step s = .next t) (ht : EndsWithin n t) :
    EndsWithin (n + 1) s := by
  obtain ⟨k, hk, hrun⟩ := ht
  refine ⟨k + 1, Nat.succ_le_succ hk, ?_⟩
  rwa [run_step h]

theorem one_le_stepsBound {s : State} (hp : PositionInv s) (hb : s.st.busy = true) : 1 ≤ stepsBound s := by
  obtain ⟨k, ts, hts⟩ := exists_line hp hb
  rw [stepsBound, hts]
  exact Nat.le_add_right_of_le (one_le_positionCost _ k ts)

theorem endsWithin_of_stepsBound_le {n : Nat} {s : State} (hp : PositionInv s) (hr : Running s)
    (hn : stepsBound s ≤ n) : EndsWithin n s := by
  induction n generalizing s with
  | zero =>
    have hpos := one_le_stepsBound hp hr.busy
    omega
  | succ n ih =>
    obtain ⟨f, hf⟩ | ⟨t, ht, hidle | ⟨hrt, hlt⟩⟩ := step_progress hp hr
    · exact endsWithin_of_fault hf n
    · exact endsWithin_of_step ht (endsWithin_of_idle hidle n)
    · exact endsWithin_of_step ht (ih (stepKeepsThePosition s t hp ht) hrt (by omega))

/-- Settles O44: `stepsBound` is lowered by every step that neither ends the command nor faults. -/
theorem everyCommandEnds : Obligations.EveryCommandEnds := fun _ hp hb hn =>
  endsWithin_of_stepsBound_le hp ⟨hb, hn⟩ le_rfl

end Sys2Proof.Proofs
end

section
/-! What a transaction with no stretching costs (R246): the actions and the sleep of the pieces of its trace, added up. -/

namespace Sys2Proof.Proofs

open Sys2Proof.Machine Sys2Proof.Safety

/-! ### Sums of sleeps -/

@[simp] theorem sleepTotal_nil : sleepTotal [] = 0 := rfl

@[simp] theorem sleepTotal_cons_slp (n : Nat) (tr : List Action) : sleepTotal (.slp n :: tr) = n + sleepTotal tr := rfl

@[simp] theorem sleepTotal_cons_pu (l : Line) (tr : List Action) : sleepTotal (.pu l :: tr) = sleepTotal tr :=
  Nat.zero_add _

@[simp] theorem sleepTotal_cons_lo (l : Line) (tr : List Action) : sleepTotal (.lo l :: tr) = sleepTotal tr :=
  Nat.zero_add _

@[simp] theorem sleepTotal_cons_rd (l : Line) (b : Bool) (tr : List Action) :
    sleepTotal (.rd l b :: tr) = sleepTotal tr :=
  Nat.zero_add _

@[simp] theorem sleepTotal_append (tr tr' : List Action) : sleepTotal (tr ++ tr') = sleepTotal tr + sleepTotal tr' := by
  simp [sleepTotal]

@[simp] theorem sleepTotal_flatMap {α : Type} (f : α → List Action) (xs : List α) :
    sleepTotal (xs.flatMap f) = (xs.map fun x => sleepTotal (f x)).sum := by
  induction xs with
  | nil => rfl
  | cons x xs ih => simp [ih]

/-! ### One bit -/

@[simp] theorem length_bitsOf (b : Byte) : (bitsOf b).length = 8 := rfl

@[simp] theorem length_writeBitTrace (h : Nat) (b : Bool) : (writeBitTrace h b).length = 6 := rfl

@[simp] theorem sleepTotal_writeBitTrace (h : Nat) (b : Bool) : sleepTotal (writeBitTrace h b) = 2 * h := by
  cases b <;> simp [writeBitTrace, Nat.two_mul]

@[simp] theorem length_readBitTrace (h : Nat) (d : Bool) : (readBitTrace h d).length = 5 := rfl

@[simp] theorem sleepTotal_readBitTrace (h : Nat) (d : Bool) : sleepTotal (readBitTrace h d) = h := rfl

@[simp] theorem sleepTotal_acknackTrace (h : Nat) (ack : Bool) : sleepTotal (acknackTrace h ack) = 2 * h := by
  cases ack <;> simp [acknackTrace, Nat.two_mul]

/-! ### Bytes -/

@[simp] theorem length_writeByteTrace (h : Nat) (nack : Bool) (b : Byte) : (writeByteTrace h nack b).length = 55 := by
  simp [writeByteTrace, ackTrace]

@[simp] theorem sleepTotal_writeByteTrace (h : Nat) (nack : Bool) (b : Byte) :
    sleepTotal (writeByteTrace h nack b) = 17 * h := by
  simp [writeByteTrace, ackTrace]
  omega

@[simp] theorem length_readByteTrace (h : Nat) (ack : Bool) (v : Byte) : (readByteTrace h ack v).length = 48 := by
  simp [readByteTrace, acknackTrace]

@[simp] theorem sleepTotal_readByteTrace (h : Nat) (ack : Bool) (v : Byte) :
    sleepTotal (readByteTrace h ack v) = 10 * h := by
  simp [readByteTrace]
  omega

/-- The last byte, the one that is NACKed (R154), traces as many actions as the others. -/
@[simp] theorem length_readBytesTrace (h : Nat) (data : List Byte) :
    (readBytesTrace h data).length = data.length * 48 := by
  induction data using List.reverseRecOn with
  | nil => rfl
  | append_singleton got v => simp [readBytesTrace_append, Nat.succ_mul]

/-- The last byte, the one that is NACKed (R154), sleeps as long as the others. -/
@[simp] theorem sleepTotal_readBytesTrace (h : Nat) (data : List Byte) :
    sleepTotal (readBytesTrace h data) = data.length * (10 * h) := by
  induction data using List.reverseRecOn with
  | nil => simp [readBytesTrace]
  | append_singleton got v => simp [readBytesTrace_append, Nat.succ_mul]

/-! ### WRITE and READ -/

theorem length_writeTrace (h : Nat) (a : Addr) (data : List Byte) :
    (writeTrace h a data).length = 67 + 55 * data.length := by
  simp [writeTrace, startTrace, stopTrace]
  omega

theorem sleepTotal_writeTrace (h : Nat) (a : Addr) (data : List Byte) :
    sleepTotal (writeTrace h a data) = (22 + 17 * data.length) * h := by
  simp [writeTrace, startTrace, stopTrace]
  ring

theorem length_readTrace (h : Nat) (a : Addr) (data : List Byte) :
    (readTrace h a data).length = 67 + 48 * data.length := by
  simp [readTrace, startTrace, stopTrace]
  omega

theorem sleepTotal_readTrace (h : Nat) (a : Addr) (data : List Byte) :
    sleepTotal (readTrace h a data) = (22 + 10 * data.length) * h := by
  simp [readTrace, startTrace, stopTrace]
  ring

/-- Settles O60: the runs of O33 and O34 end without error, and what they trace is counted. -/
theorem transactionsSleepAsAccounted : Obligations.TransactionsSleepAsAccounted := by
  intro s a n scl sda hb hn hi hp hlen hscl
  refine ⟨fun data hdata hsda => ?_, fun data hdata hsda => ?_⟩
  · have hlength : data.length = n.toNat := Memory.readFrom_length hdata
    obtain ⟨t, ht, w, -, -, -, hreach⟩ :=
      writeSendsItsBytes s a n data scl sda hb hn hi hp hlen hdata hscl hsda
    rw [← hlength]
    exact ⟨t, _, _, ht, hreach, rfl, rfl, rfl, length_writeTrace .., sleepTotal_writeTrace ..⟩
  · obtain ⟨t, ht, w, -, -, -, hreach⟩ :=
      readStoresTheBytesSent s a n data scl sda hb hn hi hp hlen hdata hscl hsda
    rw [← hdata]
    exact ⟨t, _, _, ht, hreach, rfl, rfl, rfl, length_readTrace .., sleepTotal_readTrace ..⟩

end Sys2Proof.Proofs
end

section
/-! Reset (R230, R233): the values it gives, and that they meet every invariant. -/

namespace Sys2Proof.Proofs

open Sys2Proof.Machine Sys2Proof.Safety

/-- Whatever the host, the ENV, the platform and the other instances are, the block's own pieces have R230's values. -/
theorem resetValues_resetBlock (s : State) : resetValues s.resetBlock := by
  have hword : s.resetBlock.statusWord = 0 := by
    show State.statusWord State.reset = 0
    decide
  exact ⟨hword, rfl, rfl, rfl, rfl, rfl, rfl, rfl, rfl, rfl, fun _ => ⟨rfl, rfl, rfl⟩, rfl⟩

theorem resetBlock_reset : State.reset.resetBlock = State.reset := rfl

/-- Settles O10: the reset event is `State.resetBlock`, and the reset state is a fixed point of it. -/
theorem resetPutsEveryPieceAtItsValue : Obligations.ResetPutsEveryPieceAtItsValue :=
  ⟨resetBlock_reset ▸ resetValues_resetBlock State.reset,
    fun s => ⟨_, rfl, resetValues_resetBlock s.nextStmt, rfl⟩⟩

theorem stopped_reset : Stopped State.reset := ⟨rfl, rfl⟩

/-- Settles O58: at reset no command is in progress, the block is not INITIALIZED, every memory and the list of other
instances are empty, and the platform is inside R9's bounds. -/
theorem resetMeetsEveryInvariant : Obligations.ResetMeetsEveryInvariant := by
  have hposition : PositionInv State.reset := ⟨nofun, fun _ => ⟨rfl, rfl, rfl, rfl, rfl⟩⟩
  have hstretch : StretchInv State.reset := stretchInv_of_noWait rfl rfl
  have hmirror : MirrorInv State.reset := ⟨rfl, rfl⟩
  have hconfigured : ConfiguredInv State.reset := fun _ => ⟨rfl, rfl, rfl, rfl⟩
  have hbus : BusInv State.reset := busInv_of_uninitialized rfl stopped_reset
  have hreads : ReadsInv State.reset := readsInv_of_stopped stopped_reset
  have hpins : PinsInv State.reset := pinsInv_of_uninitialized rfl stopped_reset
  have hstop : StopInv State.reset := stopInv_of_stopped hpins stopped_reset rfl nofun
  have hmemory : MemoryWf State.reset := ⟨.nil, .nil, .nil, .nil⟩
  have hbounds : BoundsInv State.reset := ⟨rfl, rfl, nofun, nofun, nofun⟩
  have hpeers : PeersInv State.reset := ⟨.nil, nofun⟩
  exact ⟨hposition, hstretch, hmirror, hconfigured, hbus, hreads, hstop, hmemory, hbounds, hpeers⟩

end Sys2Proof.Proofs
end
